-- ==== Sys2Proof/Word.lean ====
section
/-! DEFINITION. The words of the block: 8-bit port values, 16-bit command words, 11-bit response words. -/

namespace Sys2Proof

/-- A port-wide value: bit `p` stands for pin `p`, bit 0 is the least significant (00_scope.md R13, 20_memory.md R42). -/
abbrev Byte := BitVec 8

/-- A command word OP[15:12] PIN[11:8] DATA[7:0] (30_encoding.md R53). -/
abbrev Word := BitVec 16

/-- A response word CODE[10:8] DATA[7:0] (30_encoding.md R60). -/
abbrev RespWord := BitVec 11

/-- A pin of the port, 0 to 7 (00_scope.md R8, NPINS = 8). -/
abbrev Pin := Fin 8

end Sys2Proof
end

