-- ==== Sys2Proof/Config.lean ====
section
/-! DEFINITION. The parameters the spec leaves OPEN (00_scope.md R9 to R11) and the free values of the block's environment
(R12, 20_memory.md R48). A free value is an opaque constant, so that nothing can be proved of it. -/

namespace Sys2Proof

/-- A callback handle: an opaque token that the block stores and emits and never interprets; there is no null handle
(00_scope.md R11). DESIGN CHOICE, unsafe for claims that count handles: the OPEN type is a token numbered by a `Nat` (log 7). -/
structure Callback where
  id : Nat
  deriving DecidableEq, Repr

/-- The result of one transaction of the Register I/O Port (10_state.md R35, 90_conflicts.md C1). -/
inductive PortStatus where
  | success
  | lengthError
  | addrNack
  | dataNack
  | busError
  deriving DecidableEq, Repr, Inhabited

/-- What the Register I/O Port answers to one transaction; the byte means something to a read only (00_scope.md R12, R15). -/
structure PortAnswer where
  byte : Byte
  status : PortStatus
  deriving DecidableEq, Repr

/-- The agents whose steps are scheduled (00_scope.md R16). PORT has no steps of its own. -/
inductive Agent where
  | main
  | trig
  | callback
  | engine
  deriving DecidableEq, Repr, Inhabited

namespace Config

/-- INIT_SNAPSHOT: what CUR and PREV hold after reset, any byte (00_scope.md R10, 92_eei_decisions.md D11; log 5). -/
opaque initSnapshot : Byte

/-- DEV_ADDR: the address passed unchanged to every port transaction (00_scope.md R9; log 6). -/
opaque devAddr : Nat

/-- The byte of the n-th free draw: any byte on every read (00_scope.md R12, 92_eei_decisions.md D28; log 1). -/
opaque portByte : Nat → Byte

/-- The status of the n-th free draw: any of the five on every transaction (00_scope.md R12; log 1). -/
opaque portStatus : Nat → PortStatus

/-- The agent chosen at the n-th free draw: any agent (20_memory.md R48; log 2). -/
opaque agentChoice : Nat → Agent

end Config
end Sys2Proof
end

