-- ==== Sys2Proof/Syntax.lean ====
section
/-! DEFINITION. The commands: one constructor for each row of spec/opcode_table.json (30_encoding.md R57). -/

namespace Sys2Proof

/-- The interrupt mode of a binding (30_encoding.md R58). -/
inductive IntMode where
  | low
  | change
  | rising
  | falling
  deriving DecidableEq, Repr

/-- The pin mode of PINMODE (30_encoding.md R59). `reserved` is PM = 3, which no legal command carries. -/
inductive PinMode where
  | input
  | output
  | inputPullup
  | reserved
  deriving DecidableEq, Repr

/-- The block's commands. `pin` is the 4-bit PIN field: 8..15 are legal encodings that the command's rule answers
INVALID_PIN (30_encoding.md R54). -/
inductive Instr where
  /-- R76: `out` is the new direction (1 = OUTPUT), `apply` writes the port at once. -/
  | setdir (pin : BitVec 4) (out apply : Bool)
  /-- R77. -/
  | setout (pin : BitVec 4) (v : Bool)
  /-- R78. -/
  | getin (pin : BitVec 4)
  /-- R80. -/
  | applyall (value : Byte)
  /-- R81. -/
  | clearall
  /-- R82. -/
  | setall
  /-- R89: `h` is the operand carried beside the word. -/
  | attach (pin : BitVec 4) (mode : IntMode) (h : Callback)
  /-- R90. -/
  | detach (pin : BitVec 4)
  /-- R92. -/
  | poll
  /-- R100. -/
  | inten (en : Bool)
  /-- R101. -/
  | ignore
  /-- R106. -/
  | pinmode (pin : BitVec 4) (pm : PinMode)
  /-- R107. -/
  | toggle (pin : BitVec 4)
  /-- R108. -/
  | dread (pin : BitVec 4)
  /-- R109. -/
  | pread
  deriving DecidableEq, Repr

end Sys2Proof
end

