-- ==== Sys2Proof/WellFormed.lean ====
section
/-! DEFINITION. Which terms of `Instr` are legal commands. -/

namespace Sys2Proof

/-- The one operand value that a term can hold and no legal command carries is PM = 3 (30_encoding.md R59, R63 clause 3).
Every value of the other operands is legal: a PIN of 8..15 is, and answers INVALID_PIN (R54), and so are all four modes (R58). -/
def wellFormed : Instr → Bool
  | .setdir _ _ _ => true
  | .setout _ _ => true
  | .getin _ => true
  | .applyall _ => true
  | .clearall => true
  | .setall => true
  | .attach _ _ _ => true
  | .detach _ => true
  | .poll => true
  | .inten _ => true
  | .ignore => true
  | .pinmode _ pm => decide (pm ≠ .reserved)
  | .toggle _ => true
  | .dread _ => true
  | .pread => true

end Sys2Proof
end

