-- ==== Sys2Proof/Decode.lean ====
section
/-! DEFINITION. Decoding a command word, total on every word (30_encoding.md R65), and the encoder written from the same
tables (R53, R57 to R59, R67). -/

namespace Sys2Proof

/-- Why a word is no legal command (30_encoding.md R63). Each reason answers ILLEGAL. -/
inductive Illegal where
  /-- R63 clause 1: OP = 0x0. -/
  | opcode
  /-- R63 clause 2: a reserved-zero bit is 1. -/
  | reservedBits
  /-- R63 clause 3: PINMODE with PM = 3. -/
  | pinMode
  deriving DecidableEq, Repr

/-- OP, word[15:12] (R53). -/
def opField (w : Word) : BitVec 4 := w.extractLsb' 12 4

/-- PIN, word[11:8] (R53). -/
def pinField (w : Word) : BitVec 4 := w.extractLsb' 8 4

/-- DATA, word[7:0] (R53). -/
def dataField (w : Word) : Byte := w.extractLsb' 0 8

/-- The mode of a MODE field (R58). -/
def modeOf (m : BitVec 2) : IntMode :=
  match m with
  | 0#2 => .low
  | 1#2 => .change
  | 2#2 => .rising
  | _ => .falling

/-- The MODE field of a mode (R58). -/
def modeBits : IntMode → BitVec 2
  | .low => 0#2
  | .change => 1#2
  | .rising => 2#2
  | .falling => 3#2

/-- The pin mode of a PM field (R59). -/
def pinModeOf (m : BitVec 2) : PinMode :=
  match m with
  | 0#2 => .input
  | 1#2 => .output
  | 2#2 => .inputPullup
  | _ => .reserved

/-- The PM field of a pin mode (R59). -/
def pinModeBits : PinMode → BitVec 2
  | .input => 0#2
  | .output => 1#2
  | .inputPullup => 2#2
  | .reserved => 3#2

/-- The command if the reserved-zero bits are all 0, and the reason otherwise (R63 clause 2). -/
def ifReservedZero (clear : Bool) (i : Instr) : Except Illegal Instr :=
  if clear then .ok i else .error .reservedBits

/-- R65: the command a word stands for, with the handle operand presented beside it (R33), which ATTACH alone reads. -/
def decode (w : Word) (h : Callback) : Except Illegal Instr :=
  let pin := pinField w
  let d := dataField w
  match opField w with
  | 0x1#4 => ifReservedZero (d.extractLsb' 2 6 == 0#6) (.setdir pin (d.getLsbD 0) (d.getLsbD 1))
  | 0x2#4 => ifReservedZero (d.extractLsb' 1 7 == 0#7) (.setout pin (d.getLsbD 0))
  | 0x3#4 => ifReservedZero (d == 0#8) (.getin pin)
  | 0x4#4 => ifReservedZero (pin == 0#4) (.applyall d)
  | 0x5#4 => ifReservedZero (pin == 0#4 && d == 0#8) .clearall
  | 0x6#4 => ifReservedZero (pin == 0#4 && d == 0#8) .setall
  | 0x7#4 => ifReservedZero (d.extractLsb' 2 6 == 0#6) (.attach pin (modeOf (d.extractLsb' 0 2)) h)
  | 0x8#4 => ifReservedZero (d == 0#8) (.detach pin)
  | 0x9#4 => ifReservedZero (pin == 0#4 && d == 0#8) .poll
  | 0xA#4 => ifReservedZero (pin == 0#4 && d.extractLsb' 1 7 == 0#7) (.inten (d.getLsbD 0))
  | 0xB#4 => ifReservedZero (pin == 0#4 && d == 0#8) .ignore
  | 0xC#4 =>
    if d.extractLsb' 2 6 == 0#6 then
      if d.extractLsb' 0 2 == 3#2 then .error .pinMode else .ok (.pinmode pin (pinModeOf (d.extractLsb' 0 2)))
    else .error .reservedBits
  | 0xD#4 => ifReservedZero (d == 0#8) (.toggle pin)
  | 0xE#4 => ifReservedZero (d == 0#8) (.dread pin)
  | 0xF#4 => ifReservedZero (pin == 0#4 && d == 0#8) .pread
  | _ => .error .opcode

/-- R53: word = {OP, PIN, DATA}. -/
def commandWord (op pin : BitVec 4) (d : Byte) : Word := op ++ pin ++ d

/-- R57, R67: the word of a command. ATTACH's handle is not in the word (R53). -/
def encode : Instr → Word
  | .setdir pin out apply => commandWord 0x1#4 pin (0#6 ++ BitVec.ofBool apply ++ BitVec.ofBool out)
  | .setout pin v => commandWord 0x2#4 pin (0#7 ++ BitVec.ofBool v)
  | .getin pin => commandWord 0x3#4 pin 0#8
  | .applyall value => commandWord 0x4#4 0#4 value
  | .clearall => commandWord 0x5#4 0#4 0#8
  | .setall => commandWord 0x6#4 0#4 0#8
  | .attach pin mode _ => commandWord 0x7#4 pin (0#6 ++ modeBits mode)
  | .detach pin => commandWord 0x8#4 pin 0#8
  | .poll => commandWord 0x9#4 0#4 0#8
  | .inten en => commandWord 0xA#4 0#4 (0#7 ++ BitVec.ofBool en)
  | .ignore => commandWord 0xB#4 0#4 0#8
  | .pinmode pin pm => commandWord 0xC#4 pin (0#6 ++ pinModeBits pm)
  | .toggle pin => commandWord 0xD#4 pin 0#8
  | .dread pin => commandWord 0xE#4 pin 0#8
  | .pread => commandWord 0xF#4 0#4 0#8

/-- The handle presented beside a command's word (R33, R53): ATTACH's own operand, `other` for every other command. -/
def handleOf (other : Callback) : Instr → Callback
  | .attach _ _ h => h
  | _ => other

/-- The handle that stands beside a word of the opcode table, which numbers the word's bits only. DESIGN CHOICE, safe (log 9). -/
def tableHandle : Callback := ⟨0⟩

/-- A word of the opcode table as the command interface presents it: one whole 16-bit word (20_memory.md R42), with the bits
above `nbits` 0. -/
def tableWord (nbits w : Nat) : Word := BitVec.ofNat 16 (w % 2 ^ nbits)

/-- What the decoder reads from an instruction whose bits are `w`, numbered as spec/opcode_table.json numbers them. -/
def decodeTableWord (nbits w : Nat) : Option Instr := (decode (tableWord nbits w) tableHandle).toOption

end Sys2Proof
end

