-- ==== Sys2Proof/Machine/State.lean ====
section
/-! DEFINITION. The state of the block (10_state.md R18), its environment and what an observer has seen of it, all plain data;
the reasons a step can stop; the state after reset (R32). -/

namespace Sys2Proof.Machine

/-- Why the machine stops with a fault. It has no constructor: the block has no fault state and no trap
(60_exceptions.md R110, 92_eei_decisions.md D26), so no step of this model can fault. -/
inductive Fault where
  deriving DecidableEq, Repr

/-- Why a step is refused. -/
inductive Refusal where
  /-- Raised by an arm of `exec` for an instruction that has no meaning yet (safe); no arm raises it. -/
  | notModelled (mnemonic : String)
  deriving DecidableEq, Repr

/-- The agents that issue commands and take responses (10_state.md R33, R34). -/
inductive Issuer where
  | main
  | callback
  deriving DecidableEq, Repr

/-- ORIGIN (10_state.md R28): who started the poll in progress; CMD owes MAIN a response. -/
inductive Origin where
  | cmd
  | auto
  deriving DecidableEq, Repr

/-- MODE and H of a present binding (10_state.md R25). -/
structure Binding where
  mode : IntMode
  handle : Callback
  deriving DecidableEq, Repr

/-- One command as its issuer presents it: the word, and the handle that ATTACH reads (10_state.md R33; log 9). -/
structure Command where
  word : Word
  handle : Callback
  deriving DecidableEq, Repr

/-- What a running callback does next (42_interrupt_dispatch.md R96, R97). -/
inductive CallbackAct where
  | command (c : Command)
  | done
  deriving DecidableEq, Repr

/-- One event an observer sees (10_state.md R38). -/
inductive Obs where
  /-- A response and the agent it goes to (R34). -/
  | response (dest : Issuer) (word : RespWord)
  /-- A read transaction: the byte and status answered (R35). -/
  | portRead (addr : Nat) (byte : Byte) (status : PortStatus)
  /-- A write transaction: the value written and the status answered (R35). -/
  | portWrite (addr : Nat) (value : Byte) (status : PortStatus)
  /-- A callback-fire event (R37). -/
  | fire (pin : Pin) (handle : Callback)
  deriving DecidableEq, Repr

/-- The MODEL's own fields: what the environment gives to the block, in the order it gives it (logs 1, 2, 4). -/
structure Env where
  /-- The commands MAIN still has to issue. -/
  main : List Command
  /-- What running callbacks still have to do. -/
  callback : List CallbackAct
  /-- The port's next answers; when none is listed the answer is a free value. -/
  port : List PortAnswer
  /-- The agents chosen next; when none is listed the choice is a free value. -/
  sched : List Agent
  /-- How many free values have been drawn. -/
  draws : Nat
  deriving DecidableEq, Repr

/-- S0 to S11 of 10_state.md R18, then the model's own two fields. -/
structure State where
  /-- S0, R21. -/
  cur : Byte
  /-- S1, R22. -/
  prev : Byte
  /-- S2, R23: 1 = OUTPUT. -/
  dir : Byte
  /-- S3, R24. -/
  intent : Byte
  /-- S4, R25: `none` is V = 0. -/
  bind : Vector (Option Binding) 8
  /-- S5, R26. -/
  ign : Bool
  /-- S6, R27. -/
  ten : Bool
  /-- S7, R28. -/
  busy : Bool
  /-- S8, R20, R28: 0..8. -/
  cursor : Fin 9
  /-- S9, R28. -/
  wait : Bool
  /-- S10, R28. -/
  origin : Origin
  /-- S11, R28. -/
  pend : Bool
  /-- The model's own: the environment. -/
  env : Env
  /-- The model's own: what an observer has seen, newest first (R38). -/
  obs : List Obs
  deriving DecidableEq, Repr

/-- An environment that has nothing to give yet. DESIGN CHOICE (log 11). -/
def Env.empty : Env := { main := [], callback := [], port := [], sched := [], draws := 0 }

/-- The machine after reset, which is driver construction (10_state.md R32, 70_reset_and_hazards.md R126, R127). -/
def State.reset : State where
  cur := Config.initSnapshot
  prev := Config.initSnapshot
  dir := 0x00#8
  intent := 0x00#8
  bind := Vector.replicate 8 none
  ign := false
  ten := false
  busy := false
  cursor := 0
  wait := false
  origin := .cmd
  pend := false
  env := .empty
  obs := []

end Sys2Proof.Machine
end

