-- ==== Sys2Proof/Machine/Operands.lean ====
section
/-! DEFINITION. The operand forms and bit operations of the block: pin selection, one-bit updates and selects of a port-wide
value, and the write-merge (00_scope.md R14, 30_encoding.md R56, 40_pin_state_shadow.md R69, R74). -/

namespace Sys2Proof.Machine

/-- The pin a PIN field names: 0..7, and none for 8..15 (60_exceptions.md R112). -/
def pinOf (pin : BitVec 4) : Option Pin :=
  if h : pin.toNat < 8 then some ⟨pin.toNat, h⟩ else none

/-- bit(p) of R14: the byte with only bit p set. -/
def bit (p : Pin) : Byte := 1#8 <<< p.val

/-- `(m & ~bit(p)) | (v = 1 ? bit(p) : 0x00)`, the one-bit update of R76, R77 and R106. -/
def putBit (m : Byte) (p : Pin) (v : Bool) : Byte :=
  (m &&& ~~~ bit p) ||| (if v then bit p else 0x00#8)

/-- m[p] of R14. -/
def getBit (m : Byte) (p : Pin) : Bool := m.getLsbD p.val

/-- zext_8 of one bit, the DATA of GETIN and DREAD (R62). -/
def zextBit (b : Bool) : Byte := if b then 0x01#8 else 0x00#8

/-- Merge(d, i, c) of R69. -/
def merge (d i c : Byte) : Byte := (d &&& i) ||| (~~~ d &&& c)

/-- BIND[p] (10_state.md R25). -/
def binding (s : State) (p : Pin) : Option Binding := s.bind[p.val]

/-- BIND[p] <- b (R25); at most one binding a pin. -/
def setBinding (p : Pin) (b : Option Binding) (s : State) : State :=
  { s with bind := s.bind.set p.val b }

/-- The DIR bit that PINMODE writes for a pin mode (30_encoding.md R59). -/
def pinModeIsOutput : PinMode → Bool
  | .input => false
  | .output => true
  | .inputPullup => false
  | .reserved => false

end Sys2Proof.Machine
end

