-- ==== Sys2Proof/Machine/Edge.lean ====
section
/-! DEFINITION. The Edge Detector (41_edge_detector.md): a stateless function of a mode and two pin levels (R83). -/

namespace Sys2Proof.Machine

/-- Match(m, pv, cv) of R84. -/
def edgeMatch (m : IntMode) (pv cv : Bool) : Bool :=
  match m with
  | .low => !cv
  | .change => pv != cv
  | .rising => !pv && cv
  | .falling => pv && !cv

/-- Detect(pv, cv) of R87: bit m is Match(m, pv, cv). A derived view, never used for dispatch (90_conflicts.md C2). -/
def detect (pv cv : Bool) : BitVec 4 :=
  BitVec.ofBool (edgeMatch .falling pv cv) ++ BitVec.ofBool (edgeMatch .rising pv cv) ++
    BitVec.ofBool (edgeMatch .change pv cv) ++ BitVec.ofBool (edgeMatch .low pv cv)

/-- The source's three-valued edge result (R87). A derived view, never used for dispatch. -/
inductive EdgeResult where
  | none
  | rising
  | falling
  deriving DecidableEq, Repr

/-- The "single edge condition" column of R87: RISING for (0, 1), FALLING for (1, 0), NONE where the bits agree. -/
def edgeResult (pv cv : Bool) : EdgeResult :=
  match pv, cv with
  | false, true => .rising
  | true, false => .falling
  | _, _ => .none

/-- MatchVec(m, P, C) of R88, by its byte-wide formulas. -/
def matchVec (m : IntMode) (pv cv : Byte) : Byte :=
  match m with
  | .low => ~~~ cv
  | .change => pv ^^^ cv
  | .rising => ~~~ pv &&& cv
  | .falling => pv &&& ~~~ cv

/-- Pin p would fire if its binding were read now (R88, the condition of R94). -/
def pinMatches (s : State) (p : Pin) : Bool :=
  match binding s p with
  | some b => edgeMatch b.mode (getBit s.prev p) (getBit s.cur p)
  | none => false

/-- FireSet(PREV, CUR, BIND) of R88, as the pins and handles in increasing pin order. -/
def fireSet (s : State) : List (Pin × Callback) :=
  (List.finRange 8).filterMap fun p =>
    match binding s p with
    | some b => if edgeMatch b.mode (getBit s.prev p) (getBit s.cur p) then some (p, b.handle) else none
    | none => none

end Sys2Proof.Machine
end

