-- ==== Sys2Proof/Machine/Flags.lean ====
section
/-! DEFINITION. The status a response carries (30_encoding.md R60, R61) and what the engine's flags enable (10_state.md R30, R33,
42_interrupt_dispatch.md R94, R97, R98). The block has no arithmetic flags and no condition codes (R30). -/

namespace Sys2Proof.Machine

/-- The response codes; 7 is never produced (R61, 93_implementation_defined.md I16). -/
inductive Code where
  | success
  | lengthError
  | addrNack
  | dataNack
  | busError
  | invalidPin
  | illegal
  deriving DecidableEq, Repr

/-- CODE[2:0] (R61). -/
def codeBits : Code → BitVec 3
  | .success => 0#3
  | .lengthError => 1#3
  | .addrNack => 2#3
  | .dataNack => 3#3
  | .busError => 4#3
  | .invalidPin => 5#3
  | .illegal => 6#3

/-- A port status travels unchanged from the Register I/O Port to CODE (R61, R113). -/
def codeOfStatus : PortStatus → Code
  | .success => .success
  | .lengthError => .lengthError
  | .addrNack => .addrNack
  | .dataNack => .dataNack
  | .busError => .busError

/-- The response word {CODE, DATA} (R60). -/
def respWord (c : Code) (d : Byte) : RespWord := codeBits c ++ d

/-- DATA of a POLL response that ran its dispatch (R62). -/
def pollPerformed : Byte := 0x00#8

/-- DATA of a POLL response that consumed the IgnoreFlag (R62). -/
def pollIgnored : Byte := 0x01#8

/-- DATA of a POLL response that was deferred (R62). -/
def pollDeferred : Byte := 0x02#8

/-- MAIN's command is accepted (10_state.md R33); otherwise MAIN holds. -/
def mainAccepted (s : State) : Bool := !s.busy && !s.pend

/-- A fired callback is running: CB's commands and CB_DONE are accepted (R33, R97). -/
def callbackRunning (s : State) : Bool := s.busy && s.wait

/-- DSTEP is enabled (R94). -/
def dstepEnabled (s : State) : Bool := s.busy && !s.wait

/-- DEFER is enabled (R98). -/
def deferEnabled (s : State) : Bool := !s.busy && s.pend

/-- The agent whose command is being executed: MAIN's are accepted only while BUSY = 0 and CB's only while BUSY = 1 (R33).
DEDUCED, safe (log 10). -/
def issuer (s : State) : Issuer := if s.busy then .callback else .main

end Sys2Proof.Machine
end

