-- ==== Sys2Proof/Machine/Ops.lean ====
section
/-! DEFINITION. The primitives of 00_scope.md R15 and the operations that several commands and steps share: port transactions,
responses, the entry into a handler and its return (60_exceptions.md R116, R117), port writes that commit on success
(40_pin_state_shadow.md R71, R73), fresh reads, and the start of a poll (42_interrupt_dispatch.md R91). -/

namespace Sys2Proof.Machine

/-- Records an event at its place in the one total order of steps (20_memory.md R48, 10_state.md R38). -/
def observe (o : Obs) (s : State) : State := { s with obs := o :: s.obs }

/-- respond(code, data) of R15, to the agent that issued the command (10_state.md R34). -/
def respond (dest : Issuer) (c : Code) (d : Byte) (s : State) : State := observe (.response dest (respWord c d)) s

/-- The answer of the next port transaction: the environment's, and a free value where it lists none (R12; log 1). -/
def portAnswer (s : State) : PortAnswer :=
  match s.env.port with
  | a :: _ => a
  | [] => ⟨Config.portByte s.env.draws, Config.portStatus s.env.draws⟩

/-- The state once that answer has been given. -/
def takeAnswer (s : State) : State :=
  match s.env.port with
  | _ :: rest => { s with env := { s.env with port := rest } }
  | [] => { s with env := { s.env with draws := s.env.draws + 1 } }

/-- PortRead() of R15: one 8-bit read transaction at DEV_ADDR, answered by `portAnswer s`. -/
def portRead (s : State) : State :=
  observe (.portRead Config.devAddr (portAnswer s).byte (portAnswer s).status) (takeAnswer s)

/-- PortWrite(w) of R15: one 8-bit write transaction at DEV_ADDR, whose status is that of `portAnswer s`. -/
def portWrite (w : Byte) (s : State) : State :=
  observe (.portWrite Config.devAddr w (portAnswer s).status) (takeAnswer s)

/-- A per-pin command: INVALID_PIN for a PIN of 8..15, with no transaction and no write, and `f` otherwise (60_exceptions.md R112). -/
def withPin (pin : BitVec 4) (f : Pin → State → State) (s : State) : State :=
  match pinOf pin with
  | some p => f p s
  | none => respond (issuer s) .invalidPin 0x00#8 s

/-- Writes w to the port. A success commits the command's own register and `CUR <- w` and answers w (R71); a failure
commits nothing and answers the status (R73). -/
def writeCommit (w : Byte) (commit : State → State) (s : State) : State :=
  match (portAnswer s).status with
  | .success => respond (issuer s) .success w { commit (portWrite w s) with cur := w }
  | st => respond (issuer s) (codeOfStatus st) 0x00#8 (portWrite w s)

/-- Sets DIR[p] and does not touch the port (R76 with apply = 0, R106). -/
def setDirBit (p : Pin) (out : Bool) (s : State) : State :=
  respond (issuer s) .success 0x00#8 { s with dir := putBit s.dir p out }

/-- Sets DIR[p] and writes the merge made with the new DIR (R76 with apply = 1). -/
def applyDirBit (p : Pin) (out : Bool) (s : State) : State :=
  let d := putBit s.dir p out
  writeCommit (merge d s.intent s.cur) (fun t => { t with dir := d }) s

/-- SETOUT(p, v) of R77, from its range check on. -/
def setOutBit (p : Pin) (v : Bool) (s : State) : State :=
  let i := putBit s.intent p v
  writeCommit (merge s.dir i s.cur) (fun t => { t with intent := i }) s

/-- APPLYALL(value) of R80: the literal byte, which becomes INTENT and CUR (R72, R79). -/
def writeAll (value : Byte) (s : State) : State :=
  writeCommit value (fun t => { t with intent := value }) s

/-- A fresh read: a success sets CUR and answers `data` of the byte; a failure leaves CUR (43_driver_facade.md R108, R109). -/
def freshRead (data : Byte → Byte) (s : State) : State :=
  match (portAnswer s).status with
  | .success => respond (issuer s) .success (data (portAnswer s).byte) { portRead s with cur := (portAnswer s).byte }
  | st => respond (issuer s) (codeOfStatus st) 0x00#8 (portRead s)

/-- The response a poll start gives: to MAIN for CMD, to nobody for AUTO (R91). -/
def pollRespond (o : Origin) (c : Code) (d : Byte) (s : State) : State :=
  match o with
  | .cmd => respond .main c d s
  | .auto => s

/-- PollStart(o) of R91. -/
def pollStart (o : Origin) (s : State) : State :=
  if s.ign then
    pollRespond o .success pollIgnored { s with ign := false }
  else
    match (portAnswer s).status with
    | .success =>
      { portRead s with
        prev := s.cur, cur := (portAnswer s).byte, busy := true, cursor := 0, wait := false, origin := o }
    | st => pollRespond o (codeOfStatus st) 0x00#8 (portRead s)

/-- Entry into a handler: fire(p, h) of R15, the last action of its DSTEP. The return point is CURSOR, with WAIT = 1; no mode
and no mask changes (60_exceptions.md R116). -/
def enterHandler (p : Pin) (h : Callback) (s : State) : State :=
  observe (.fire p h) { s with wait := true }

/-- Return from a handler: CB_DONE restores nothing but WAIT = 0 (60_exceptions.md R117, 42_interrupt_dispatch.md R97). -/
def leaveHandler (s : State) : State := { s with wait := false }

end Sys2Proof.Machine
end

