-- ==== Sys2Proof/Machine/Facade.lean ====
section
/-! DEFINITION. The Driver Facade commands (43_driver_facade.md). -/

namespace Sys2Proof.Machine

/-- PINMODE (R106). PM = 3 is ILLEGAL (30_encoding.md R59, R63): the decoder refuses its word, and a term that holds it answers
the same, before the range check (60_exceptions.md R114). -/
def execPinmode (pin : BitVec 4) (pm : PinMode) (s : State) : Host.Outcome State Fault Refusal :=
  .next (match pm with
    | .reserved => respond (issuer s) .illegal 0x00#8 s
    | _ => withPin pin (fun p => setDirBit p (pinModeIsOutput pm)) s)

/-- TOGGLE (R107): the intent bit is inverted, not the CUR bit. -/
def execToggle (pin : BitVec 4) (s : State) : Host.Outcome State Fault Refusal :=
  .next (withPin pin (fun p t => setOutBit p (!getBit t.intent p) t) s)

/-- DREAD (R108). -/
def execDread (pin : BitVec 4) (s : State) : Host.Outcome State Fault Refusal :=
  .next (withPin pin (fun p => freshRead fun b => zextBit (getBit b p)) s)

/-- PREAD (R109). -/
def execPread (s : State) : Host.Outcome State Fault Refusal :=
  .next (freshRead (fun b => b) s)

end Sys2Proof.Machine
end

