-- ==== Sys2Proof/Machine/Interrupt.lean ====
section
/-! DEFINITION. The binding and gate commands (42_interrupt_dispatch.md). -/

namespace Sys2Proof.Machine

/-- ATTACH (R89). -/
def execAttach (pin : BitVec 4) (mode : IntMode) (h : Callback) (s : State) : Host.Outcome State Fault Refusal :=
  .next (withPin pin (fun p t => respond (issuer t) .success 0x00#8 (setBinding p (some ⟨mode, h⟩) t)) s)

/-- DETACH (R90). -/
def execDetach (pin : BitVec 4) (s : State) : Host.Outcome State Fault Refusal :=
  .next (withPin pin (fun p t => respond (issuer t) .success 0x00#8 (setBinding p none t)) s)

/-- POLL (R92): MAIN's starts a poll and answers at retirement; CB's is deferred, never nested (R93). -/
def execPoll (s : State) : Host.Outcome State Fault Refusal :=
  .next (match issuer s with
    | .main => pollStart .cmd s
    | .callback => respond .callback .success pollDeferred { s with pend := true })

/-- INTEN (R100). -/
def execInten (en : Bool) (s : State) : Host.Outcome State Fault Refusal :=
  .next (respond (issuer s) .success 0x00#8 { s with ten := en })

/-- IGNORE (R101). -/
def execIgnore (s : State) : Host.Outcome State Fault Refusal :=
  .next (respond (issuer s) .success 0x00#8 { s with ign := true })

end Sys2Proof.Machine
end

