-- ==== Sys2Proof/Machine/Shadow.lean ====
section
/-! DEFINITION. The Pin State Shadow commands (40_pin_state_shadow.md). -/

namespace Sys2Proof.Machine

/-- SETDIR (R76). -/
def execSetdir (pin : BitVec 4) (out apply : Bool) (s : State) : Host.Outcome State Fault Refusal :=
  .next (withPin pin (fun p => if apply then applyDirBit p out else setDirBit p out) s)

/-- SETOUT (R77). -/
def execSetout (pin : BitVec 4) (v : Bool) (s : State) : Host.Outcome State Fault Refusal :=
  .next (withPin pin (fun p => setOutBit p v) s)

/-- GETIN (R78). -/
def execGetin (pin : BitVec 4) (s : State) : Host.Outcome State Fault Refusal :=
  .next (withPin pin (fun p t => respond (issuer t) .success (zextBit (getBit t.cur p)) t) s)

/-- APPLYALL (R80). -/
def execApplyall (value : Byte) (s : State) : Host.Outcome State Fault Refusal :=
  .next (writeAll value s)

/-- CLEARALL (R81). -/
def execClearall (s : State) : Host.Outcome State Fault Refusal :=
  .next (writeAll 0x00#8 s)

/-- SETALL (R82). -/
def execSetall (s : State) : Host.Outcome State Fault Refusal :=
  .next (writeAll 0xFF#8 s)

end Sys2Proof.Machine
end

