-- ==== Sys2Proof/Machine/Dispatch.lean ====
section
/-! DEFINITION. One arm per constructor of Instr. -/

namespace Sys2Proof.Machine

def exec (i : Instr) (s : State) : Host.Outcome State Fault Refusal :=
  match i with
  | .setdir pin out apply => Sys2Proof.Machine.execSetdir pin out apply s
  | .setout pin v => Sys2Proof.Machine.execSetout pin v s
  | .getin pin => Sys2Proof.Machine.execGetin pin s
  | .applyall value => Sys2Proof.Machine.execApplyall value s
  | .clearall => Sys2Proof.Machine.execClearall s
  | .setall => Sys2Proof.Machine.execSetall s
  | .attach pin mode h => Sys2Proof.Machine.execAttach pin mode h s
  | .detach pin => Sys2Proof.Machine.execDetach pin s
  | .poll => Sys2Proof.Machine.execPoll s
  | .inten en => Sys2Proof.Machine.execInten en s
  | .ignore => Sys2Proof.Machine.execIgnore s
  | .pinmode pin pm => Sys2Proof.Machine.execPinmode pin pm s
  | .toggle pin => Sys2Proof.Machine.execToggle pin s
  | .dread pin => Sys2Proof.Machine.execDread pin s
  | .pread => Sys2Proof.Machine.execPread s

end Sys2Proof.Machine
end

