-- ==== Sys2Proof/Machine/Engine.lean ====
section
/-! DEFINITION. The steps that are not commands: DSTEP, DEFER, CB_DONE and the trigger step (42_interrupt_dispatch.md). -/

namespace Sys2Proof.Machine

/-- The retiring DSTEP (R94, step (5)): the engine is idle again, and a poll of origin CMD answers MAIN "performed". -/
def retire (s : State) : State :=
  pollRespond s.origin .success pollPerformed { s with busy := false, cursor := 0, origin := .cmd }

/-- A DSTEP that examines pin p (R94, step (4)), with BIND, PREV and CUR as they stand at this step (R95). -/
def examine (p : Pin) (s : State) : State :=
  let t := { s with cursor := p.succ }
  match binding s p with
  | some b => if edgeMatch b.mode (getBit s.prev p) (getBit s.cur p) then enterHandler p b.handle t else t
  | none => t

/-- DSTEP (R94). -/
def dstep (s : State) : State :=
  if h : s.cursor.val < 8 then examine ⟨s.cursor.val, h⟩ s else retire s

/-- DEFER (R98). -/
def deferStep (s : State) : State := pollStart .auto { s with pend := false }

/-- CB_DONE (R97). -/
def callbackDone (s : State) : State := leaveHandler s

/-- The trigger step (R99). -/
def trigStep (s : State) : State :=
  if s.ten then
    if s.busy || s.pend then { s with pend := true } else pollStart .auto s
  else s

end Sys2Proof.Machine
end

