-- ==== Sys2Proof/Machine/Agents.lean ====
section
/-! DEFINITION. The steps of each agent (00_scope.md R16) and the choice of the next one (20_memory.md R48). -/

namespace Sys2Proof.Machine

/-- The agent that moves next: the environment's choice, and a free value where it lists none (R48; log 2). -/
def chosenAgent (s : State) : Agent :=
  match s.env.sched with
  | a :: _ => a
  | [] => Config.agentChoice s.env.draws

/-- The state once that choice has been made. -/
def takeChoice (s : State) : State :=
  match s.env.sched with
  | _ :: rest => { s with env := { s.env with sched := rest } }
  | [] => { s with env := { s.env with draws := s.env.draws + 1 } }

/-- Runs an accepted command as one atomic step (20_memory.md R47): its meaning if its word is legal, the response ILLEGAL and
nothing else otherwise (30_encoding.md R63). -/
def runCommand (c : Command) (s : State) : Host.Outcome State Fault Refusal :=
  match decode c.word c.handle with
  | .ok i => exec i s
  | .error _ => .next (respond (issuer s) .illegal 0x00#8 s)

/-- A step of MAIN: its next command if commands are accepted from it; otherwise it holds, and the command stays its next one
(10_state.md R33). -/
def mainStep (s : State) : Host.Outcome State Fault Refusal :=
  match s.env.main with
  | c :: rest =>
    if mainAccepted s then runCommand c { s with env := { s.env with main := rest } } else .next s
  | [] => .next s

/-- A step of CB while a fired callback is running: its next command, or CB_DONE (10_state.md R33, 42_interrupt_dispatch.md R96,
R97). A callback with nothing listed has not ended. -/
def callbackStep (s : State) : Host.Outcome State Fault Refusal :=
  match s.env.callback with
  | .command c :: rest =>
    if callbackRunning s then runCommand c { s with env := { s.env with callback := rest } } else .next s
  | .done :: rest =>
    if callbackRunning s then .next (callbackDone { s with env := { s.env with callback := rest } }) else .next s
  | [] => .next s

/-- A step of ENGINE: DSTEP or DEFER, whichever is enabled; nothing while the block is idle (60_exceptions.md R125). -/
def engineStep (s : State) : State :=
  if dstepEnabled s then dstep s else if deferEnabled s then deferStep s else s

/-- The step of the chosen agent. A chosen agent that has no enabled step changes nothing. DESIGN CHOICE, safe (log 3). -/
def agentStep (a : Agent) (s : State) : Host.Outcome State Fault Refusal :=
  match a with
  | .main => mainStep s
  | .trig => .next (trigStep s)
  | .callback => callbackStep s
  | .engine => .next (engineStep s)

/-- Presents a command so that it is the next to run: to the running callback if there is one and to MAIN otherwise, with that
agent chosen next (10_state.md R33; log 4). -/
def presentNext (c : Command) (s : State) : State :=
  if callbackRunning s then
    { s with env := { s.env with callback := .command c :: s.env.callback, sched := .callback :: s.env.sched } }
  else
    { s with env := { s.env with main := c :: s.env.main, sched := .main :: s.env.sched } }

end Sys2Proof.Machine
end

