-- ==== Sys2Proof/Machine/Step.lean ====
section
/-! DEFINITION. One step of the block: one atomic step of the chosen agent (20_memory.md R47, R48). -/

namespace Sys2Proof.Machine

/-- One step of the machine. -/
def step (s : State) : Host.Outcome State Fault Refusal := agentStep (chosenAgent s) (takeChoice s)

/-- `s` with the command whose word's bits are `w` presented next. The block fetches nothing (20_memory.md R51), so this stands
for the host presenting a command, with `tableHandle` beside it. -/
def State.withFetchWord (s : State) (nbits w : Nat) : State :=
  presentNext ⟨tableWord nbits w, tableHandle⟩ s

end Sys2Proof.Machine
end

