-- ==== Sys2Proof/Safety.lean ====
section
/-! DEFINITION. The terms in which claims about the block are made: its twelve items as one value (10_state.md R18), what an
observer has counted (R38), the facts of every reachable state (R29), and legal observations (30_encoding.md R60, R61). -/

namespace Sys2Proof.Machine

/-- The architectural state, S0 to S11 (10_state.md R18), without the model's own fields. -/
structure Arch where
  cur : Byte
  prev : Byte
  dir : Byte
  intent : Byte
  bind : Vector (Option Binding) 8
  ign : Bool
  ten : Bool
  busy : Bool
  cursor : Fin 9
  wait : Bool
  origin : Origin
  pend : Bool
  deriving DecidableEq, Repr

/-- The twelve items of a state. -/
def arch (s : State) : Arch where
  cur := s.cur
  prev := s.prev
  dir := s.dir
  intent := s.intent
  bind := s.bind
  ign := s.ign
  ten := s.ten
  busy := s.busy
  cursor := s.cursor
  wait := s.wait
  origin := s.origin
  pend := s.pend

/-- The state with one response added to what an observer has seen, and nothing else changed. -/
def answered (dest : Issuer) (w : RespWord) (s : State) : State := { s with obs := .response dest w :: s.obs }

/-- The response word of a failed port transaction: CODE is the status, DATA is 0x00 (30_encoding.md R60, R61). -/
def failureWord : PortStatus → RespWord
  | .success => 0x000#11
  | .lengthError => 0x100#11
  | .addrNack => 0x200#11
  | .dataNack => 0x300#11
  | .busError => 0x400#11

/-- The response word SUCCESS with DATA d (R60, R61). -/
def successWord (d : Byte) : RespWord := 0#3 ++ d

/-- CODE of a response word (R60). -/
def respCode (w : RespWord) : BitVec 3 := w.extractLsb' 8 3

/-- DATA of a response word (R60). -/
def respData (w : RespWord) : Byte := w.extractLsb' 0 8

/-- A port transaction (10_state.md R35). -/
def isPort : Obs → Bool
  | .portRead _ _ _ => true
  | .portWrite _ _ _ => true
  | .response _ _ => false
  | .fire _ _ => false

/-- A response to one of the agents (R34). -/
def isResponseTo (a : Issuer) : Obs → Bool
  | .response dest _ => decide (dest = a)
  | .portRead _ _ _ => false
  | .portWrite _ _ _ => false
  | .fire _ _ => false

/-- How many port transactions an observer has seen. -/
def portCount (s : State) : Nat := s.obs.countP isPort

/-- A read transaction. -/
def isRead : Obs → Bool
  | .portRead _ _ _ => true
  | .portWrite _ _ _ => false
  | .response _ _ => false
  | .fire _ _ => false

/-- A write transaction. -/
def isWrite : Obs → Bool
  | .portRead _ _ _ => false
  | .portWrite _ _ _ => true
  | .response _ _ => false
  | .fire _ _ => false

/-- How many reads of the port an observer has seen. -/
def readCount (s : State) : Nat := s.obs.countP isRead

/-- How many writes to the port an observer has seen. -/
def writeCount (s : State) : Nat := s.obs.countP isWrite

/-- How many responses an observer has seen go to an agent. -/
def responseCount (a : Issuer) (s : State) : Nat := s.obs.countP (isResponseTo a)

/-- The pin and handle of a fire event. -/
def fireOf : Obs → Option (Pin × Callback)
  | .fire p h => some (p, h)
  | .portRead _ _ _ => none
  | .portWrite _ _ _ => none
  | .response _ _ => none

/-- The fire events an observer has seen, newest first. -/
def fires (s : State) : List (Pin × Callback) := s.obs.filterMap fireOf

/-- 1 while a poll owes MAIN its response (10_state.md R28), 0 otherwise. -/
def owedToMain (s : State) : Nat := if s.busy = true ∧ s.origin = .cmd then 1 else 0

/-- The commands MAIN still has to issue. -/
def mainCommandsLeft (s : State) : Nat := s.env.main.length

/-- A callback's command, as against its CB_DONE. -/
def isCommand : CallbackAct → Bool
  | .command _ => true
  | .done => false

/-- The commands that callbacks still have to issue. -/
def callbackCommandsLeft (s : State) : Nat := s.env.callback.countP isCommand

/-- The engine is idle (60_exceptions.md R125; 95_test_vectors.md "Idle"). -/
def idle (s : State) : Prop :=
  s.busy = false ∧ s.cursor = 0 ∧ s.wait = false ∧ s.origin = .cmd ∧ s.pend = false

/-- What R29 says of every reachable state. CURSOR ≤ 8 and MODE ∈ {0, 1, 2, 3} hold by their types. -/
def engineConsistent (s : State) : Prop :=
  (s.busy = false → s.cursor = 0 ∧ s.wait = false ∧ s.origin = .cmd) ∧
  (s.wait = true → s.busy = true ∧ 1 ≤ s.cursor.val)

/-- An event the block may show: a response whose CODE is not 7 and whose DATA is 0x00 unless CODE is 0 (30_encoding.md R60, R61),
a port transaction at DEV_ADDR (00_scope.md R9), or a fire. -/
def legalObs : Obs → Prop
  | .response _ w => respCode w ≠ 7#3 ∧ (respCode w ≠ 0#3 → respData w = 0x00#8)
  | .portRead addr _ _ => addr = Config.devAddr
  | .portWrite addr _ _ => addr = Config.devAddr
  | .fire _ _ => True

/-- Everything an observer has seen is legal. -/
def obsLegal (s : State) : Prop := ∀ o ∈ s.obs, legalObs o

/-- The PIN operand of a per-pin command (30_encoding.md R55, R57, format P); none for the other formats. -/
def perPinOperand : Instr → Option (BitVec 4)
  | .setdir pin _ _ => some pin
  | .setout pin _ => some pin
  | .getin pin => some pin
  | .applyall _ => none
  | .clearall => none
  | .setall => none
  | .attach pin _ _ => some pin
  | .detach pin => some pin
  | .poll => none
  | .inten _ => none
  | .ignore => none
  | .pinmode pin _ => some pin
  | .toggle pin => some pin
  | .dread pin => some pin
  | .pread => none

/-- How many reads a command makes by the table of 20_memory.md R44: INVALID_PIN and ILLEGAL make none. -/
def commandReads (i : Instr) (s : State) : Nat :=
  match i with
  | .setdir _ _ _ => 0
  | .setout _ _ => 0
  | .getin _ => 0
  | .applyall _ => 0
  | .clearall => 0
  | .setall => 0
  | .attach _ _ _ => 0
  | .detach _ => 0
  | .poll => if s.busy || s.ign then 0 else 1
  | .inten _ => 0
  | .ignore => 0
  | .pinmode _ _ => 0
  | .toggle _ => 0
  | .dread pin => if pin.toNat < 8 then 1 else 0
  | .pread => 1

/-- How many writes a command makes by the table of 20_memory.md R44: INVALID_PIN and ILLEGAL make none. -/
def commandWrites (i : Instr) : Nat :=
  match i with
  | .setdir pin _ apply => if apply && pin.toNat < 8 then 1 else 0
  | .setout pin _ => if pin.toNat < 8 then 1 else 0
  | .getin _ => 0
  | .applyall _ => 1
  | .clearall => 1
  | .setall => 1
  | .attach _ _ _ => 0
  | .detach _ => 0
  | .poll => 0
  | .inten _ => 0
  | .ignore => 0
  | .pinmode _ _ => 0
  | .toggle pin => if pin.toNat < 8 then 1 else 0
  | .dread _ => 0
  | .pread => 0

/-- The three clauses of 30_encoding.md R63 on the bits of a word: OP = 0; a reserved-zero bit of the format that R57 gives the
opcode; PINMODE with DATA[1:0] = 3. -/
def illegalWord (w : Word) : Prop :=
  let op := w.toNat / 4096
  let pin := w.toNat / 256 % 16
  let data := w.toNat % 256
  op = 0 ∨
  ((op = 1 ∨ op = 7 ∨ op = 12) ∧ 4 ≤ data) ∨
  (op = 2 ∧ 2 ≤ data) ∨
  ((op = 3 ∨ op = 8 ∨ op = 13 ∨ op = 14) ∧ data ≠ 0) ∨
  (op = 4 ∧ pin ≠ 0) ∨
  ((op = 5 ∨ op = 6 ∨ op = 9 ∨ op = 11 ∨ op = 15) ∧ (pin ≠ 0 ∨ data ≠ 0)) ∨
  (op = 10 ∧ (pin ≠ 0 ∨ 2 ≤ data)) ∨
  (op = 12 ∧ data % 4 = 3)

/-- The part of a state's FireSet that lies below pin k, in pin order (41_edge_detector.md R88). -/
def firesBelow (k : Nat) (s : State) : List (Pin × Callback) := (fireSet s).filter fun f => decide (f.1.val < k)

/-- A state of the poll that began at `s0` whose callbacks issue no command and in which nothing a poll matches against has changed:
the pins fired so far are those of `s0`'s FireSet below CURSOR, in pin order (41_edge_detector.md R88, 42_interrupt_dispatch.md
R102). -/
def duringPoll (s0 s : State) : Prop :=
  (∀ a ∈ s.env.callback, isCommand a = false) ∧ s.busy = true ∧ s.cur = s0.cur ∧ s.prev = s0.prev ∧ s.bind = s0.bind ∧
  fires s = (firesBelow s.cursor.val s0).reverse ++ fires s0

/-- The agents' turns of one poll: MAIN's POLL, then for each pin a DSTEP and a turn for the callback it may fire, then the
retiring DSTEP (42_interrupt_dispatch.md R94: nine DSTEPs). -/
def pollTurns : List Agent :=
  .main :: ((List.replicate 8 [Agent.engine, Agent.callback]).flatten ++ [.engine])

end Sys2Proof.Machine
end

