-- ==== Sys2Proof/Certificates/Slice0/Obligations.lean ====
section
/-! DEFINITION. The statements about the block, for the provers. Each docstring names the rules of spec/ it formalises. -/

open Sys2Proof Sys2Proof.Machine

/-! ### Encoding -/

/-- R53, R57, R65, R67: decoding the word of a well-formed command, with its handle beside it, gives the command back. -/
def Obligations.DecodeOfEncodeIsTheCommand : Prop :=
  ∀ (i : Instr) (other : Callback), wellFormed i = true → decode (encode i) (handleOf other i) = .ok i

/-- R57, R63, R65: a word stands for at most one command. What decodes is well formed, has that word, and takes its handle, if it
has one, from beside the word. -/
def Obligations.EncodeOfDecodeIsTheWord : Prop :=
  ∀ (w : Word) (h : Callback) (i : Instr),
    decode w h = .ok i → encode i = w ∧ wellFormed i = true ∧ handleOf h i = h

/-- R63: the words of its three clauses answer ILLEGAL, write no register and make no transaction; every other word is a
command, which runs. -/
def Obligations.IllegalWordsAnswerIllegalAndOthersRun : Prop :=
  ∀ (w : Word) (h : Callback) (s : State),
    (illegalWord w → runCommand ⟨w, h⟩ s = .next (answered (issuer s) 0x600#11 s)) ∧
    (¬ illegalWord w → ∃ i, decode w h = .ok i ∧ runCommand ⟨w, h⟩ s = exec i s)

/-- 95_test_vectors.md V2, V8, V10, V11: words and the commands they stand for. -/
def Obligations.SampleWordsDecode : Prop :=
  decode 0x1003#16 ⟨0⟩ = .ok (.setdir 0 true true) ∧ decode 0x2801#16 ⟨0⟩ = .ok (.setout 8 true) ∧
  decode 0x7F03#16 ⟨5⟩ = .ok (.attach 15 .falling ⟨5⟩) ∧ decode 0x40FF#16 ⟨0⟩ = .ok (.applyall 0xFF) ∧
  decode 0xC502#16 ⟨0⟩ = .ok (.pinmode 5 .inputPullup) ∧ decode 0x9000#16 ⟨0⟩ = .ok .poll ∧
  decode 0xE700#16 ⟨0⟩ = .ok (.dread 7) ∧ decode 0xA001#16 ⟨0⟩ = .ok (.inten true) ∧
  decode 0x2803#16 ⟨0⟩ = .error .reservedBits ∧ decode 0xC003#16 ⟨0⟩ = .error .pinMode ∧
  decode 0x0FFF#16 ⟨0⟩ = .error .opcode ∧ decode 0x4FFF#16 ⟨0⟩ = .error .reservedBits

/-- R60, R61: the response word is CODE times 256 plus DATA, with the codes of the table. -/
def Obligations.ResponseWordIsCodeThenData : Prop :=
  (∀ (c : Code) (d : Byte), (respWord c d).toNat = (codeBits c).toNat * 256 + d.toNat) ∧
  (∀ d : Byte, respWord .success d = successWord d) ∧
  (∀ st : PortStatus, respWord (codeOfStatus st) 0x00#8 = failureWord st) ∧
  respWord .invalidPin 0x00#8 = 0x500#11 ∧ respWord .illegal 0x00#8 = 0x600#11

/-! ### A step runs the decoded command -/

/-- R33, R47, R63, R65: a step whose turn falls to an agent whose command is accepted runs that command, whatever its word, at the
state `u` from which that turn and that command have been taken and in which nothing else has changed: the meaning of the command its
word decodes to, or the answer ILLEGAL and nothing else where the word is illegal. That the environment holds turns and commands as
lists is the model's choice (logs 2 and 4). -/
def Obligations.StepRunsTheDecodedCommand : Prop :=
  ∀ (s u : State) (c : Command) (turns : List Agent),
    ((∃ cmds, s.env.sched = .main :: turns ∧ s.env.main = c :: cmds ∧ s.busy = false ∧ s.pend = false ∧
        u = { s with env := { s.env with main := cmds, sched := turns } }) ∨
      (∃ acts, s.env.sched = .callback :: turns ∧ s.env.callback = .command c :: acts ∧ s.busy = true ∧ s.wait = true ∧
        u = { s with env := { s.env with callback := acts, sched := turns } })) →
    step s = runCommand c u ∧
    (∀ i, decode c.word c.handle = .ok i → step s = exec i u) ∧
    (illegalWord c.word → step s = .next (answered (issuer s) 0x600#11 u))

/-- R33, R51: where a command is accepted at all, the word placed by `withFetchWord` is the next to run. That the environment holds
commands as a list is the model's choice (log 4). -/
def Obligations.PresentedWordRunsNext : Prop :=
  ∀ (s : State) (nbits w : Nat) (i : Instr), decodeTableWord nbits w = some i →
    ((s.busy = false ∧ s.pend = false) ∨ (s.busy = true ∧ s.wait = true)) →
    step (s.withFetchWord nbits w) = exec i s

/-- R33, R94, R98, R125: an agent whose turn comes while it has no enabled step changes nothing but the turn; MAIN's command is not
lost. That such a turn can come at all is the model's choice (log 3). -/
def Obligations.AgentsHoldWhileNothingIsEnabled : Prop :=
  ∀ (s : State) (turns : List Agent),
    ((s.env.sched = .main :: turns ∧ (s.busy = true ∨ s.pend = true)) ∨
     (s.env.sched = .callback :: turns ∧ (s.busy = false ∨ s.wait = false)) ∨
     (s.env.sched = .engine :: turns ∧ ((s.busy = true ∧ s.wait = true) ∨ (s.busy = false ∧ s.pend = false)))) →
    step s = .next { s with env := { s.env with sched := turns } }

/-- R12, log 1 (the model's choice of form): the port's answer is the environment's, and a free value where it lists none. -/
def Obligations.PortAnswersAreTheEnvironments : Prop :=
  ∀ s : State,
    (∀ a rest, s.env.port = a :: rest →
      portAnswer s = a ∧ takeAnswer s = { s with env := { s.env with port := rest } }) ∧
    (s.env.port = [] →
      portAnswer s = ⟨Config.portByte s.env.draws, Config.portStatus s.env.draws⟩ ∧
      takeAnswer s = { s with env := { s.env with draws := s.env.draws + 1 } })

/-! ### Reset -/

/-- R32: every item after reset. R127: no transaction has been made; in the model that clause holds because nothing is seen at reset,
which is the model's choice (log 11). -/
def Obligations.ResetLeavesTheTabledValues : Prop :=
  State.reset.cur = Config.initSnapshot ∧ State.reset.prev = Config.initSnapshot ∧
  State.reset.dir = 0x00#8 ∧ State.reset.intent = 0x00#8 ∧ (∀ p : Pin, binding State.reset p = none) ∧
  State.reset.ign = false ∧ State.reset.ten = false ∧ idle State.reset ∧ portCount State.reset = 0

/-! ### The shared functions -/

/-- R69: the formula, and lane by lane. -/
def Obligations.MergeSelectsByDirectionLane : Prop :=
  ∀ d i c : Byte, merge d i c = ((d &&& i) ||| (~~~ d &&& c)) ∧
    ∀ p : Pin, getBit (merge d i c) p = if getBit d p then getBit i p else getBit c p

/-- R70: the laws of Merge. -/
def Obligations.MergeLaws : Prop :=
  (∀ i c : Byte, merge 0xFF#8 i c = i ∧ merge 0x00#8 i c = c) ∧
  (∀ d i c : Byte, merge d i c &&& ~~~ d = c &&& ~~~ d ∧ merge d i c &&& d = i &&& d) ∧
  (∀ d c : Byte, merge d c c = c) ∧
  (∀ (d i c : Byte) (q : Pin) (v : Bool), getBit d q = false → merge d (putBit i q v) c = merge d i c)

/-- R14, R76, R77: the one-bit update changes its own bit and no other. -/
def Obligations.PutBitChangesOneBit : Prop :=
  ∀ (m : Byte) (p q : Pin) (v : Bool), getBit (putBit m p v) q = if q = p then v else getBit m q

/-- R25, R89, R90: writing one entry of the table leaves the seven others. -/
def Obligations.SetBindingChangesOneEntry : Prop :=
  ∀ (s : State) (p q : Pin) (b : Option Binding),
    binding (setBinding p b s) q = if q = p then b else binding s q

/-- R84: when a binding of each mode matches. -/
def Obligations.MatchComparesTheTwoLevels : Prop :=
  ∀ pv cv : Bool,
    (edgeMatch (modeOf 0#2) pv cv = true ↔ cv = false) ∧ (edgeMatch (modeOf 1#2) pv cv = true ↔ pv ≠ cv) ∧
    (edgeMatch (modeOf 2#2) pv cv = true ↔ pv = false ∧ cv = true) ∧
    (edgeMatch (modeOf 3#2) pv cv = true ↔ pv = true ∧ cv = false)

/-- R85, R87 (inferences of the spec from R84): the truth table as Detect, and the single edge condition. -/
def Obligations.DetectAndEdgeResultFollowMatch : Prop :=
  (∀ (m : IntMode) (pv cv : Bool), (detect pv cv).getLsbD (modeBits m).toNat = edgeMatch m pv cv) ∧
  detect false false = 0b0001#4 ∧ detect false true = 0b0110#4 ∧ detect true false = 0b1011#4 ∧
  detect true true = 0b0000#4 ∧
  edgeResult false true = .rising ∧ edgeResult true false = .falling ∧ (∀ b : Bool, edgeResult b b = .none)

/-- R88: the byte-wide formulas are Match on each lane, and their laws. -/
def Obligations.MatchVecIsMatchOnEachLane : Prop :=
  (∀ (m : IntMode) (pv cv : Byte) (p : Pin),
    getBit (matchVec m pv cv) p = edgeMatch m (getBit pv p) (getBit cv p)) ∧
  (∀ pv cv : Byte,
    matchVec .change pv cv = (matchVec .rising pv cv ||| matchVec .falling pv cv) ∧
    (matchVec .rising pv cv &&& matchVec .falling pv cv) = 0x00#8 ∧
    (matchVec .falling pv cv &&& ~~~ matchVec .low pv cv) = 0x00#8)

/-- R88: FireSet holds exactly the pins whose binding matches, each once and in increasing pin order. -/
def Obligations.FireSetIsTheMatchingPinsInOrder : Prop :=
  ∀ s : State,
    (∀ (p : Pin) (h : Callback), (p, h) ∈ fireSet s ↔
      ∃ m, binding s p = some ⟨m, h⟩ ∧ edgeMatch m (getBit s.prev p) (getBit s.cur p) = true) ∧
    (fireSet s).Pairwise (fun a b => a.1 < b.1)

/-- R86: a LOW binding matches whatever PREV holds while its pin reads 0, and no edge mode matches a steady pin, whatever the other
pins do. -/
def Obligations.LowIsLevelTriggeredAndTheOthersAreNot : Prop :=
  ∀ (s : State) (p : Pin) (h : Callback) (m : IntMode), binding s p = some ⟨m, h⟩ →
    (m = .low → ∀ q : Byte, (p, h) ∈ fireSet { s with prev := q } ↔ getBit s.cur p = false) ∧
    (m ≠ .low → getBit s.prev p = getBit s.cur p → (p, h) ∉ fireSet s)

/-! ### What each command does, with its frame -/

/-- R76: SETDIR and its word, on every pin, with and without apply, on a success and on every failure of the write. -/
def Obligations.SetdirSetsOneDirectionBit : Prop :=
  ∀ (pin : BitVec 4) (out apply : Bool) (s : State),
    (∀ h, decode (commandWord 0x1#4 pin (0#6 ++ BitVec.ofBool apply ++ BitVec.ofBool out)) h =
      .ok (.setdir pin out apply)) ∧
    (8 ≤ pin.toNat → exec (.setdir pin out apply) s = .next (answered (issuer s) 0x500#11 s)) ∧
    (∀ (p : Pin) (d w : Byte), pin.toNat = p.val → d = putBit s.dir p out → w = merge d s.intent s.cur →
      (apply = false →
        exec (.setdir pin out apply) s = .next { answered (issuer s) 0x000#11 s with dir := d }) ∧
      (apply = true → (portAnswer s).status = .success →
        exec (.setdir pin out apply) s = .next { takeAnswer s with
          dir := d, cur := w
          obs := .response (issuer s) (successWord w) :: .portWrite Config.devAddr w .success :: s.obs }) ∧
      (∀ st, apply = true → (portAnswer s).status = st → st ≠ .success →
        exec (.setdir pin out apply) s = .next { takeAnswer s with
          obs := .response (issuer s) (failureWord st) :: .portWrite Config.devAddr w st :: s.obs }))

/-- R77: SETOUT and its word, on every pin, on a success and on every failure of the write. -/
def Obligations.SetoutWritesTheMergedByte : Prop :=
  ∀ (pin : BitVec 4) (v : Bool) (s : State),
    (∀ h, decode (commandWord 0x2#4 pin (0#7 ++ BitVec.ofBool v)) h = .ok (.setout pin v)) ∧
    (8 ≤ pin.toNat → exec (.setout pin v) s = .next (answered (issuer s) 0x500#11 s)) ∧
    (∀ (p : Pin) (x w : Byte), pin.toNat = p.val → x = putBit s.intent p v → w = merge s.dir x s.cur →
      ((portAnswer s).status = .success →
        exec (.setout pin v) s = .next { takeAnswer s with
          intent := x, cur := w
          obs := .response (issuer s) (successWord w) :: .portWrite Config.devAddr w .success :: s.obs }) ∧
      (∀ st, (portAnswer s).status = st → st ≠ .success →
        exec (.setout pin v) s = .next { takeAnswer s with
          obs := .response (issuer s) (failureWord st) :: .portWrite Config.devAddr w st :: s.obs }))

/-- R78: GETIN, by its word, answers the CUR bit and changes nothing. -/
def Obligations.GetinAnswersTheShadowBit : Prop :=
  ∀ (pin : BitVec 4) (s : State),
    (∀ h, decode (commandWord 0x3#4 pin 0x00#8) h = .ok (.getin pin)) ∧
    (8 ≤ pin.toNat → exec (.getin pin) s = .next (answered (issuer s) 0x500#11 s)) ∧
    (∀ p : Pin, pin.toNat = p.val →
      exec (.getin pin) s =
        .next (answered (issuer s) (successWord (if getBit s.cur p then 0x01#8 else 0x00#8)) s))

/-- R80, R81, R82: APPLYALL, CLEARALL and SETALL, by their words, write their literal byte, whatever DIR holds. -/
def Obligations.BulkWritesWriteTheLiteralByte : Prop :=
  (∀ (w : Byte) (h : Callback), decode (commandWord 0x4#4 0#4 w) h = .ok (.applyall w) ∧
    decode 0x5000#16 h = .ok .clearall ∧ decode 0x6000#16 h = .ok .setall) ∧
  ∀ (i : Instr) (w : Byte) (s : State),
    (i = .applyall w ∨ (i = .clearall ∧ w = 0x00#8) ∨ (i = .setall ∧ w = 0xFF#8)) →
    ((portAnswer s).status = .success →
      exec i s = .next { takeAnswer s with
        intent := w, cur := w
        obs := .response (issuer s) (successWord w) :: .portWrite Config.devAddr w .success :: s.obs }) ∧
    (∀ st, (portAnswer s).status = st → st ≠ .success →
      exec i s = .next { takeAnswer s with
        obs := .response (issuer s) (failureWord st) :: .portWrite Config.devAddr w st :: s.obs })

/-- R89, R90: ATTACH makes its pin's binding present, DETACH makes it absent, and nothing else changes. -/
def Obligations.AttachAndDetachWriteOneBinding : Prop :=
  ∀ (pin : BitVec 4) (mode : IntMode) (h : Callback) (s : State),
    (8 ≤ pin.toNat →
      exec (.attach pin mode h) s = .next (answered (issuer s) 0x500#11 s) ∧
      exec (.detach pin) s = .next (answered (issuer s) 0x500#11 s)) ∧
    (∀ p : Pin, pin.toNat = p.val →
      exec (.attach pin mode h) s =
        .next { answered (issuer s) 0x000#11 s with bind := s.bind.set p.val (some ⟨mode, h⟩) } ∧
      exec (.detach pin) s = .next { answered (issuer s) 0x000#11 s with bind := s.bind.set p.val none })

/-- R91, R92, R93: POLL from a callback is deferred; from MAIN it consumes the IgnoreFlag, or reads once and starts the dispatch, or
reports the failed read and changes nothing. -/
def Obligations.PollStartsOrDefersOrIgnores : Prop :=
  ∀ s : State,
    (s.busy = true → exec .poll s = .next { answered .callback 0x002#11 s with pend := true }) ∧
    (s.busy = false → s.ign = true → exec .poll s = .next { answered .main 0x001#11 s with ign := false }) ∧
    (∀ b, s.busy = false → s.ign = false → portAnswer s = ⟨b, .success⟩ →
      exec .poll s = .next { takeAnswer s with
        prev := s.cur, cur := b, busy := true, cursor := 0, wait := false, origin := .cmd
        obs := .portRead Config.devAddr b .success :: s.obs }) ∧
    (∀ b st, s.busy = false → s.ign = false → portAnswer s = ⟨b, st⟩ → st ≠ .success →
      exec .poll s = .next { takeAnswer s with
        obs := .response .main (failureWord st) :: .portRead Config.devAddr b st :: s.obs })

/-- R100, R101: INTEN writes TEN only, IGNORE sets IGN only. -/
def Obligations.IntenAndIgnoreWriteOneFlag : Prop :=
  ∀ (en : Bool) (s : State),
    exec (.inten en) s = .next { answered (issuer s) 0x000#11 s with ten := en } ∧
    exec .ignore s = .next { answered (issuer s) 0x000#11 s with ign := true }

/-- R106, R59: PINMODE, by its word, sets the DIR bit of its pin, for each pin mode, makes no transaction, and is SETDIR without apply;
PM = 3 answers ILLEGAL. -/
def Obligations.PinmodeRecordsTheDirection : Prop :=
  (∀ (pin : BitVec 4) (h : Callback) (s : State),
    decode (commandWord 0xC#4 pin 0x00#8) h = .ok (.pinmode pin .input) ∧
    decode (commandWord 0xC#4 pin 0x01#8) h = .ok (.pinmode pin .output) ∧
    decode (commandWord 0xC#4 pin 0x02#8) h = .ok (.pinmode pin .inputPullup) ∧
    runCommand ⟨commandWord 0xC#4 pin 0x03#8, h⟩ s = .next (answered (issuer s) 0x600#11 s)) ∧
  ∀ (pin : BitVec 4) (pm : PinMode) (s : State), pm ≠ .reserved →
    (8 ≤ pin.toNat → exec (.pinmode pin pm) s = .next (answered (issuer s) 0x500#11 s)) ∧
    (∀ p : Pin, pin.toNat = p.val →
      exec (.pinmode pin pm) s =
        .next { answered (issuer s) 0x000#11 s with dir := putBit s.dir p (decide (pm = .output)) }) ∧
    exec (.pinmode pin pm) s = exec (.setdir pin (decide (pm = .output)) false) s

/-- R107: TOGGLE, by its word, is SETOUT of the inverted INTENT bit. -/
def Obligations.ToggleInvertsTheIntentBit : Prop :=
  ∀ (pin : BitVec 4) (s : State),
    (∀ h, decode (commandWord 0xD#4 pin 0x00#8) h = .ok (.toggle pin)) ∧
    (8 ≤ pin.toNat → exec (.toggle pin) s = .next (answered (issuer s) 0x500#11 s)) ∧
    (∀ (p : Pin) (x w : Byte), pin.toNat = p.val → x = putBit s.intent p (!getBit s.intent p) →
      w = merge s.dir x s.cur →
      ((portAnswer s).status = .success →
        exec (.toggle pin) s = .next { takeAnswer s with
          intent := x, cur := w
          obs := .response (issuer s) (successWord w) :: .portWrite Config.devAddr w .success :: s.obs }) ∧
      (∀ st, (portAnswer s).status = st → st ≠ .success →
        exec (.toggle pin) s = .next { takeAnswer s with
          obs := .response (issuer s) (failureWord st) :: .portWrite Config.devAddr w st :: s.obs }))

/-- R108, R109: DREAD and PREAD read the port into CUR, the whole byte, and change nothing else; a failed read leaves CUR. -/
def Obligations.FreshReadsSetCurOnly : Prop :=
  ∀ (pin : BitVec 4) (s : State),
    (8 ≤ pin.toNat → exec (.dread pin) s = .next (answered (issuer s) 0x500#11 s)) ∧
    (∀ (p : Pin) (b : Byte), pin.toNat = p.val → portAnswer s = ⟨b, .success⟩ →
      exec (.dread pin) s = .next { takeAnswer s with
        cur := b
        obs := .response (issuer s) (successWord (if getBit b p then 0x01#8 else 0x00#8)) ::
          .portRead Config.devAddr b .success :: s.obs }) ∧
    (∀ b, portAnswer s = ⟨b, .success⟩ →
      exec .pread s = .next { takeAnswer s with
        cur := b
        obs := .response (issuer s) (successWord b) :: .portRead Config.devAddr b .success :: s.obs }) ∧
    (∀ (i : Instr) (b : Byte) (st : PortStatus), ((i = .dread pin ∧ pin.toNat < 8) ∨ i = .pread) →
      portAnswer s = ⟨b, st⟩ → st ≠ .success →
      exec i s = .next { takeAnswer s with
        obs := .response (issuer s) (failureWord st) :: .portRead Config.devAddr b st :: s.obs })

/-! ### Consequences for the shadow registers -/

/-- R77: a successful SETOUT, lane by lane: no INTENT bit but its pin's and no CUR bit of an INPUT pin changes. -/
def Obligations.SetoutLeavesOtherLanes : Prop :=
  ∀ (pin : BitVec 4) (p : Pin) (v : Bool) (s : State), pin.toNat = p.val → (portAnswer s).status = .success →
    ∃ t, exec (.setout pin v) s = .next t ∧ ∀ q : Pin,
      getBit t.intent q = (if q = p then v else getBit s.intent q) ∧
      getBit t.cur q = (if getBit s.dir q then getBit t.intent q else getBit s.cur q)

/-- R77, R78 and the source's loop-back property (W2): on an OUTPUT pin, GETIN after a successful SETOUT answers the value set. -/
def Obligations.SetoutThenGetinLoopsBack : Prop :=
  ∀ (pin : BitVec 4) (p : Pin) (v : Bool) (s : State), pin.toNat = p.val → getBit s.dir p = true →
    (portAnswer s).status = .success →
    ∃ t, exec (.setout pin v) s = .next t ∧
      exec (.getin pin) t = .next (answered (issuer s) (successWord (if v then 0x01#8 else 0x00#8)) t)

/-- R107: two successful TOGGLEs restore INTENT and leave DIR. -/
def Obligations.TwoTogglesRestoreIntent : Prop :=
  ∀ (pin : BitVec 4) (s t : State), pin.toNat < 8 → (portAnswer s).status = .success →
    exec (.toggle pin) s = .next t → (portAnswer t).status = .success →
    ∃ u, exec (.toggle pin) t = .next u ∧ u.intent = s.intent ∧ u.dir = s.dir

/-- R71: whatever command writes the port, a success sets CUR to the byte written and a failure leaves CUR. -/
def Obligations.EveryPortWriteUpdatesCur : Prop :=
  ∀ (i : Instr) (s t : State) (resp : Obs) (addr : Nat) (w : Byte) (st : PortStatus), exec i s = .next t →
    t.obs = resp :: .portWrite addr w st :: s.obs →
    (st = .success → t.cur = w) ∧ (st ≠ .success → t.cur = s.cur)

/-- R72: after a successful bulk write INTENT is the byte written, and so is the merge under every direction mask. -/
def Obligations.BulkWriteFixesTheMerge : Prop :=
  ∀ (i : Instr) (w : Byte) (s : State),
    (i = .applyall w ∨ (i = .clearall ∧ w = 0x00#8) ∨ (i = .setall ∧ w = 0xFF#8)) →
    (portAnswer s).status = .success →
    ∃ t, exec i s = .next t ∧ t.intent = w ∧ ∀ d : Byte, merge d t.intent t.cur = w

/-- R24: two states that differ only in INTENT, and there only on INPUT pins, write the same byte by SETOUT and by TOGGLE, are answered
alike and reach the same CUR. -/
def Obligations.IntentOfInputPinsIsNotWritten : Prop :=
  ∀ (i : Instr) (pin : BitVec 4) (s t u : State) (x : Byte),
    ((∃ v, i = .setout pin v) ∨ i = .toggle pin) →
    (∀ q : Pin, getBit s.dir q = true → getBit x q = getBit s.intent q) →
    exec i s = .next t → exec i { s with intent := x } = .next u → t.obs = u.obs ∧ t.cur = u.cur

/-- R22: no command's answer, write or new state depends on PREV, but for PREV itself. -/
def Obligations.CommandsDoNotRevealPrev : Prop :=
  ∀ (i : Instr) (s t : State) (q : Byte), exec i s = .next t →
    ∃ u, exec i { s with prev := q } = .next u ∧ u.obs = t.obs ∧ u.env = t.env ∧
      arch { u with prev := t.prev } = arch t

/-! ### Errors and transactions -/

/-- R112: every per-pin command with PIN 8..15 answers INVALID_PIN, makes no transaction and writes nothing. -/
def Obligations.InvalidPinFailsFast : Prop :=
  ∀ (i : Instr) (pin : BitVec 4) (s : State), wellFormed i = true → perPinOperand i = some pin → 8 ≤ pin.toNat →
    exec i s = .next (answered (issuer s) 0x500#11 s)

/-- R113: the status of a failed transaction becomes the CODE; the command is not retried and commits nothing. -/
def Obligations.FailedTransactionCommitsNothing : Prop :=
  ∀ (i : Instr) (s t : State) (st : PortStatus), exec i s = .next t → portCount t ≠ portCount s →
    (portAnswer s).status = st → st ≠ .success →
    arch t = arch s ∧ portCount t = portCount s + 1 ∧
    ∃ e, ((∃ w, e = .portWrite Config.devAddr w st) ∨ e = .portRead Config.devAddr (portAnswer s).byte st) ∧
      t.obs = .response (issuer s) (failureWord st) :: e :: s.obs

/-- R110: a command that answers a CODE other than 0 leaves the twelve items as it found them; the answer goes to its issuer. -/
def Obligations.EveryErrorIsPrecise : Prop :=
  ∀ (c : Command) (s t : State) (dest : Issuer) (w : RespWord) (rest : List Obs), runCommand c s = .next t →
    t.obs = .response dest w :: rest → dest = issuer s ∧ (respCode w ≠ 0#3 → arch t = arch s)

/-- R44: the reads and the writes of every command, legal or not, and of every other step. -/
def Obligations.TransactionsFollowTheTable : Prop :=
  (∀ (i : Instr) (s t : State), exec i s = .next t →
    readCount t = readCount s + commandReads i s ∧ writeCount t = writeCount s + commandWrites i) ∧
  (∀ (w : Word) (h : Callback) (s t : State), illegalWord w → runCommand ⟨w, h⟩ s = .next t →
    readCount t = readCount s ∧ writeCount t = writeCount s) ∧
  (∀ s : State, readCount (dstep s) = readCount s ∧ writeCount (dstep s) = writeCount s ∧
    readCount (callbackDone s) = readCount s ∧ writeCount (callbackDone s) = writeCount s) ∧
  (∀ s : State, readCount (deferStep s) = readCount s + (if s.ign then 0 else 1) ∧
    writeCount (deferStep s) = writeCount s) ∧
  (∀ s : State, readCount (trigStep s) =
      readCount s + (if s.ten && !s.busy && !s.pend && !s.ign then 1 else 0) ∧
    writeCount (trigStep s) = writeCount s)

/-- R31: which commands may write each item. -/
def Obligations.OnlyTheTabledCommandsWriteEachItem : Prop :=
  ∀ (i : Instr) (s t : State), exec i s = .next t →
    (t.cur ≠ s.cur → (∃ pin out, i = .setdir pin out true) ∨ (∃ pin v, i = .setout pin v) ∨
      (∃ v, i = .applyall v) ∨ i = .clearall ∨ i = .setall ∨ (∃ pin, i = .toggle pin) ∨
      (∃ pin, i = .dread pin) ∨ i = .pread ∨ i = .poll) ∧
    (t.prev ≠ s.prev → i = .poll) ∧
    (t.dir ≠ s.dir → (∃ pin out apply, i = .setdir pin out apply) ∨ ∃ pin pm, i = .pinmode pin pm) ∧
    (t.intent ≠ s.intent → (∃ pin v, i = .setout pin v) ∨ (∃ v, i = .applyall v) ∨ i = .clearall ∨
      i = .setall ∨ ∃ pin, i = .toggle pin) ∧
    (t.bind ≠ s.bind → (∃ pin mode h, i = .attach pin mode h) ∨ ∃ pin, i = .detach pin) ∧
    (t.ign ≠ s.ign → (i = .ignore ∧ t.ign = true) ∨ (i = .poll ∧ t.ign = false)) ∧
    (t.ten ≠ s.ten → ∃ en, i = .inten en) ∧
    ((t.busy ≠ s.busy ∨ t.cursor ≠ s.cursor ∨ t.wait ≠ s.wait ∨ t.origin ≠ s.origin ∨ t.pend ≠ s.pend) →
      i = .poll)

/-- R110: the block has no fault state. That a turn of an agent with no enabled step answers a next state too, and that no step is
refused, is the model's choice (logs 3 and 17). -/
def Obligations.EveryStepAnswersANextState : Prop :=
  ∀ s : State, ∃ t, step s = .next t

/-! ### The engine, the handler's entry and return, the gate -/

/-- R94, R116: DSTEP. At CURSOR = 8 the poll retires and answers MAIN if it owes it; at pin p it advances CURSOR and enters the
handler exactly when p's binding matches. -/
def Obligations.DstepExaminesOnePinOrRetires : Prop :=
  ∀ (s u : State) (turns : List Agent), s.env.sched = .engine :: turns → s.busy = true → s.wait = false →
    u = { s with env := { s.env with sched := turns } } →
    (s.cursor = 8 → s.origin = .cmd →
      step s = .next { answered .main 0x000#11 u with busy := false, cursor := 0, origin := .cmd }) ∧
    (s.cursor = 8 → s.origin = .auto →
      step s = .next { u with busy := false, cursor := 0, origin := .cmd }) ∧
    (∀ (p : Pin) (b : Binding), s.cursor = p.castSucc → binding s p = some b →
      edgeMatch b.mode (getBit s.prev p) (getBit s.cur p) = true →
      step s = .next { u with cursor := p.succ, wait := true, obs := .fire p b.handle :: s.obs }) ∧
    (∀ p : Pin, s.cursor = p.castSucc →
      (∀ b, binding s p = some b → edgeMatch b.mode (getBit s.prev p) (getBit s.cur p) = false) →
      step s = .next { u with cursor := p.succ })

/-- R97, R117: CB_DONE restores WAIT = 0 and nothing else; no response, no transaction. -/
def Obligations.CallbackDoneClearsWaitOnly : Prop :=
  ∀ (s : State) (turns : List Agent) (acts : List CallbackAct), s.env.sched = .callback :: turns →
    s.env.callback = .done :: acts → s.busy = true → s.wait = true →
    step s = .next { s with wait := false, env := { s.env with callback := acts, sched := turns } }

/-- R98, R91: DEFER clears PEND and starts a poll that answers nobody: it consumes the IgnoreFlag, or reads once and dispatches, or
drops the failed read. -/
def Obligations.DeferStartsThePendingPoll : Prop :=
  ∀ (s u : State) (turns : List Agent), s.env.sched = .engine :: turns → s.busy = false → s.pend = true →
    u = { s with pend := false, env := { s.env with sched := turns } } →
    (s.ign = true → step s = .next { u with ign := false }) ∧
    (∀ b, s.ign = false → portAnswer u = ⟨b, .success⟩ →
      step s = .next { takeAnswer u with
        prev := s.cur, cur := b, busy := true, cursor := 0, wait := false, origin := .auto
        obs := .portRead Config.devAddr b .success :: s.obs }) ∧
    (∀ b st, s.ign = false → portAnswer u = ⟨b, st⟩ → st ≠ .success →
      step s = .next { takeAnswer u with obs := .portRead Config.devAddr b st :: s.obs })

/-- R99, R91: the trigger step, in every state. -/
def Obligations.TriggerIsLostDeferredOrStartsAPoll : Prop :=
  ∀ (s u : State) (turns : List Agent), s.env.sched = .trig :: turns →
    u = { s with env := { s.env with sched := turns } } →
    (s.ten = false → step s = .next u) ∧
    (s.ten = true → (s.busy = true ∨ s.pend = true) → step s = .next { u with pend := true }) ∧
    (s.ten = true → s.busy = false → s.pend = false → s.ign = true → step s = .next { u with ign := false }) ∧
    (∀ b, s.ten = true → s.busy = false → s.pend = false → s.ign = false → portAnswer u = ⟨b, .success⟩ →
      step s = .next { takeAnswer u with
        prev := s.cur, cur := b, busy := true, cursor := 0, wait := false, origin := .auto
        obs := .portRead Config.devAddr b .success :: s.obs }) ∧
    (∀ b st, s.ten = true → s.busy = false → s.pend = false → s.ign = false → portAnswer u = ⟨b, st⟩ →
      st ≠ .success → step s = .next { takeAnswer u with obs := .portRead Config.devAddr b st :: s.obs })

/-- R93, R134: any number of triggers while a poll is in progress or pending sets PEND, once. -/
def Obligations.TriggersCoalesceIntoOnePendingPoll : Prop :=
  ∀ (n : Nat) (s : State) (turns : List Agent), s.env.sched = List.replicate (n + 1) .trig ++ turns →
    s.ten = true → (s.busy = true ∨ s.pend = true) →
    Host.Core.run Sys2Proof.core (n + 1) s = .next { s with pend := true, env := { s.env with sched := turns } }

/-- R101, R136: after IGNORE the next POLL of MAIN answers "ignored", reads nothing and clears the flag. -/
def Obligations.IgnoreSkipsTheNextPoll : Prop :=
  ∀ s : State, s.busy = false →
    ∃ t, exec .ignore s = .next t ∧
      exec .poll t = .next { answered .main 0x001#11 (answered .main 0x000#11 s) with ign := false }

/-- R131: a fresh read between polls, by PREAD or by DREAD of any pin, becomes the next poll's PREV: a pin on which the two bytes
agree fires nothing but a LOW binding at 0, and that it does. -/
def Obligations.FreshReadBecomesTheNextPrev : Prop :=
  ∀ (i : Instr) (s : State) (b c : Byte) (rest : List PortAnswer),
    (i = .pread ∨ ∃ pin : BitVec 4, i = .dread pin ∧ pin.toNat < 8) → s.busy = false → s.ign = false →
    s.env.port = ⟨b, .success⟩ :: ⟨c, .success⟩ :: rest →
    ∃ t u, exec i s = .next t ∧ t.prev = s.prev ∧ exec .poll t = .next u ∧ u.prev = b ∧ u.cur = c ∧
      (∀ (p : Pin) (h : Callback), getBit b p = getBit c p →
        ((p, h) ∈ fireSet u ↔ binding s p = some ⟨.low, h⟩ ∧ getBit c p = false))

/-! ### The whole machine -/

/-- R29: every step keeps what R29 says of every reachable state, from any state of which it holds. -/
def Obligations.StepKeepsTheEngineConsistent : Prop :=
  ∀ s t : State, engineConsistent s → step s = .next t → engineConsistent t

/-- R29, R32: it holds at reset. Observations are legal there because nothing is seen at reset, which is the model's choice
(log 11). -/
def Obligations.ResetIsConsistentAndLegal : Prop :=
  engineConsistent State.reset ∧ obsLegal State.reset

/-- R60, R61, R9: every step keeps the observations legal: no CODE 7, DATA 0x00 with every other CODE but 0, every transaction at
DEV_ADDR. -/
def Obligations.StepKeepsObservationsLegal : Prop :=
  ∀ s t : State, obsLegal s → step s = .next t → obsLegal t

/-- R15, R33, R92: each command of MAIN gets exactly one response: every step, of any agent, keeps the sum of the responses MAIN has,
the response a poll in progress owes it, and the commands it has still to issue (held as a list by the model's choice, log 4). -/
def Obligations.MainGetsExactlyOneResponseACommand : Prop :=
  ∀ s t : State, step s = .next t →
    responseCount .main t + owedToMain t + mainCommandsLeft t =
      responseCount .main s + owedToMain s + mainCommandsLeft s

/-- R33: each command of a callback gets exactly one response, in its own step (the commands still to issue are held as a list by the
model's choice, log 4). -/
def Obligations.CallbackGetsExactlyOneResponseACommand : Prop :=
  ∀ s t : State, step s = .next t →
    responseCount .callback t + callbackCommandsLeft t = responseCount .callback s + callbackCommandsLeft s

/-- R22: PREV is written only by the shift of a poll's start, never while a poll is in progress. -/
def Obligations.PrevIsNeverOverwrittenMidCycle : Prop :=
  ∀ s t : State, step s = .next t →
    t.prev = s.prev ∨ (s.busy = false ∧ t.busy = true ∧ t.cursor = 0 ∧ t.prev = s.cur)

/-- R94, R102: a step fires at most one pin, the one CURSOR names, which CURSOR then has passed; CURSOR never goes back within a poll. -/
def Obligations.FireIsAtTheCursorWhichAdvances : Prop :=
  ∀ s t : State, step s = .next t →
    (fires t = fires s ∨ ∃ (p : Pin) (h : Callback), fires t = (p, h) :: fires s ∧ s.busy = true ∧
      s.wait = false ∧ s.cursor = p.castSucc ∧ t.cursor = p.succ ∧ t.wait = true) ∧
    (s.busy = true → t.busy = true → s.cursor ≤ t.cursor)

/-- R90, R94: no step of any agent fires a pin whose binding is absent. -/
def Obligations.AbsentBindingNeverFires : Prop :=
  ∀ (s t : State) (p : Pin), binding s p = none → step s = .next t →
    (fires t).countP (fun f => decide (f.1 = p)) = (fires s).countP (fun f => decide (f.1 = p))

/-- R88, R102: whatever the interleaving of MAIN, triggers, engine and a callback that issues no command, the pins a poll has fired are
those of its FireSet below CURSOR, in pin order, and all of it when the poll retires. -/
def Obligations.EveryInterleavingFiresTheFireSet : Prop :=
  ∀ s0 s t : State, duringPoll s0 s → step s = .next t →
    duringPoll s0 t ∨ (t.busy = false ∧ fires t = (fireSet s0).reverse ++ fires s0)

/-- R92, R94, R102: a POLL of MAIN from an idle block, with a successful read and callbacks that only end, runs to its retirement:
one read, the fires of the FireSet of the old and the new snapshot in pin order, then MAIN's response, and nothing else. The schedule gives the callback a turn after every pin: that such a turn
passes after a pin that does not fire is the model's choice (log 3). -/
def Obligations.PollRunsToItsRetirement : Prop :=
  ∀ (s : State) (h : Callback) (b : Byte) (cmds : List Command) (acts : List CallbackAct)
    (answers : List PortAnswer) (turns : List Agent) (hits : List (Pin × Callback)),
    idle s → s.ign = false → hits = fireSet { s with prev := s.cur, cur := b } →
    s.env.sched = pollTurns ++ turns → s.env.main = ⟨0x9000#16, h⟩ :: cmds →
    s.env.callback = List.replicate hits.length .done ++ acts → s.env.port = ⟨b, .success⟩ :: answers →
    Host.Core.run Sys2Proof.core 18 s = .next { s with
      prev := s.cur, cur := b
      env := { s.env with main := cmds, callback := acts, port := answers, sched := turns }
      obs := .response .main 0x000#11 :: ((hits.map fun f => Obs.fire f.1 f.2).reverse ++
        (.portRead Config.devAddr b .success :: s.obs)) }

/-- R103: a callback that never signals CB_DONE stops the block for good: after any number of steps, whatever is chosen and whatever
commands it issues, WAIT is still 1, CURSOR has not moved, nothing more has fired, and MAIN has neither issued nor been answered.
That turns go on in the hang, those of disabled agents passing, and that the hang is no fault is the model's choice (logs 3 and 17). -/
def Obligations.CallbackThatNeverEndsHangsTheBlock : Prop :=
  ∀ (n : Nat) (s : State), s.busy = true → s.wait = true → (∀ a ∈ s.env.callback, isCommand a = true) →
    ∃ t : State, Host.Core.run Sys2Proof.core n s = .next t ∧ t.busy = true ∧ t.wait = true ∧ t.cursor = s.cursor ∧
      t.prev = s.prev ∧ fires t = fires s ∧ t.env.main = s.env.main ∧
      responseCount .main t = responseCount .main s
end

