-- ==== Sys2Proof/Laws/Decode.lean ====
section
/-! SUPPORT. The fields of a command word (30_encoding.md R53): taking a word apart and putting it together. -/

namespace Sys2Proof

@[simp] theorem opField_commandWord (op pin : BitVec 4) (d : Byte) : opField (commandWord op pin d) = op := by
  unfold opField commandWord; ext i hi; simp [BitVec.getElem_extractLsb']; grind

@[simp] theorem pinField_commandWord (op pin : BitVec 4) (d : Byte) : pinField (commandWord op pin d) = pin := by
  unfold pinField commandWord; ext i hi; simp [BitVec.getElem_extractLsb']; grind

@[simp] theorem dataField_commandWord (op pin : BitVec 4) (d : Byte) : dataField (commandWord op pin d) = d := by
  unfold dataField commandWord; ext i hi; simp [BitVec.getElem_extractLsb']; grind

theorem commandWord_fields (w : Word) : commandWord (opField w) (pinField w) (dataField w) = w := by
  unfold commandWord opField pinField dataField
  ext i hi
  simp only [BitVec.getElem_append, BitVec.getElem_extractLsb']
  split
  · simp; grind
  · split <;> simp <;> grind

theorem opField_toNat (w : Word) : (opField w).toNat = w.toNat / 4096 := by
  have := w.isLt
  simp [opField, BitVec.extractLsb'_toNat, Nat.shiftRight_eq_div_pow]; omega

theorem pinField_toNat (w : Word) : (pinField w).toNat = w.toNat / 256 % 16 := by
  simp [pinField, BitVec.extractLsb'_toNat, Nat.shiftRight_eq_div_pow]

theorem dataField_toNat (w : Word) : (dataField w).toNat = w.toNat % 256 := by
  simp [dataField, BitVec.extractLsb'_toNat]

@[simp] theorem modeOf_modeBits (m : IntMode) : modeOf (modeBits m) = m := by cases m <;> rfl

@[simp] theorem modeBits_modeOf (b : BitVec 2) : modeBits (modeOf b) = b := by revert b; decide

@[simp] theorem pinModeOf_pinModeBits (m : PinMode) : pinModeOf (pinModeBits m) = m := by cases m <;> rfl

@[simp] theorem pinModeBits_pinModeOf (b : BitVec 2) : pinModeBits (pinModeOf b) = b := by revert b; decide

theorem ifReservedZero_ok {clear : Bool} {i j : Instr} (h : ifReservedZero clear i = .ok j) :
    clear = true ∧ i = j := by
  unfold ifReservedZero at h
  split at h
  · exact ⟨‹_›, by injection h⟩
  · cases h

end Sys2Proof
end

