-- ==== Sys2Proof/Laws/State.lean ====
section
/-! SUPPORT. One lemma per field per update of the state, so that no later proof unfolds a record update. -/

namespace Sys2Proof.Machine

variable (s : State)

/-! ### observe -/

@[simp] theorem observe_cur (o : Obs) : (observe o s).cur = s.cur := rfl
@[simp] theorem observe_prev (o : Obs) : (observe o s).prev = s.prev := rfl
@[simp] theorem observe_dir (o : Obs) : (observe o s).dir = s.dir := rfl
@[simp] theorem observe_intent (o : Obs) : (observe o s).intent = s.intent := rfl
@[simp] theorem observe_bind (o : Obs) : (observe o s).bind = s.bind := rfl
@[simp] theorem observe_ign (o : Obs) : (observe o s).ign = s.ign := rfl
@[simp] theorem observe_ten (o : Obs) : (observe o s).ten = s.ten := rfl
@[simp] theorem observe_busy (o : Obs) : (observe o s).busy = s.busy := rfl
@[simp] theorem observe_cursor (o : Obs) : (observe o s).cursor = s.cursor := rfl
@[simp] theorem observe_wait (o : Obs) : (observe o s).wait = s.wait := rfl
@[simp] theorem observe_origin (o : Obs) : (observe o s).origin = s.origin := rfl
@[simp] theorem observe_pend (o : Obs) : (observe o s).pend = s.pend := rfl
@[simp] theorem observe_env (o : Obs) : (observe o s).env = s.env := rfl
@[simp] theorem observe_obs (o : Obs) : (observe o s).obs = o :: s.obs := rfl

/-! ### respond -/

@[simp] theorem respond_cur (a : Issuer) (c : Code) (d : Byte) : (respond a c d s).cur = s.cur := rfl
@[simp] theorem respond_prev (a : Issuer) (c : Code) (d : Byte) : (respond a c d s).prev = s.prev := rfl
@[simp] theorem respond_dir (a : Issuer) (c : Code) (d : Byte) : (respond a c d s).dir = s.dir := rfl
@[simp] theorem respond_intent (a : Issuer) (c : Code) (d : Byte) : (respond a c d s).intent = s.intent := rfl
@[simp] theorem respond_bind (a : Issuer) (c : Code) (d : Byte) : (respond a c d s).bind = s.bind := rfl
@[simp] theorem respond_ign (a : Issuer) (c : Code) (d : Byte) : (respond a c d s).ign = s.ign := rfl
@[simp] theorem respond_ten (a : Issuer) (c : Code) (d : Byte) : (respond a c d s).ten = s.ten := rfl
@[simp] theorem respond_busy (a : Issuer) (c : Code) (d : Byte) : (respond a c d s).busy = s.busy := rfl
@[simp] theorem respond_cursor (a : Issuer) (c : Code) (d : Byte) : (respond a c d s).cursor = s.cursor := rfl
@[simp] theorem respond_wait (a : Issuer) (c : Code) (d : Byte) : (respond a c d s).wait = s.wait := rfl
@[simp] theorem respond_origin (a : Issuer) (c : Code) (d : Byte) : (respond a c d s).origin = s.origin := rfl
@[simp] theorem respond_pend (a : Issuer) (c : Code) (d : Byte) : (respond a c d s).pend = s.pend := rfl
@[simp] theorem respond_env (a : Issuer) (c : Code) (d : Byte) : (respond a c d s).env = s.env := rfl
@[simp] theorem respond_obs (a : Issuer) (c : Code) (d : Byte) : (respond a c d s).obs = .response a (respWord c d) :: s.obs := rfl

/-! ### answered -/

@[simp] theorem answered_cur (a : Issuer) (w : RespWord) : (answered a w s).cur = s.cur := rfl
@[simp] theorem answered_prev (a : Issuer) (w : RespWord) : (answered a w s).prev = s.prev := rfl
@[simp] theorem answered_dir (a : Issuer) (w : RespWord) : (answered a w s).dir = s.dir := rfl
@[simp] theorem answered_intent (a : Issuer) (w : RespWord) : (answered a w s).intent = s.intent := rfl
@[simp] theorem answered_bind (a : Issuer) (w : RespWord) : (answered a w s).bind = s.bind := rfl
@[simp] theorem answered_ign (a : Issuer) (w : RespWord) : (answered a w s).ign = s.ign := rfl
@[simp] theorem answered_ten (a : Issuer) (w : RespWord) : (answered a w s).ten = s.ten := rfl
@[simp] theorem answered_busy (a : Issuer) (w : RespWord) : (answered a w s).busy = s.busy := rfl
@[simp] theorem answered_cursor (a : Issuer) (w : RespWord) : (answered a w s).cursor = s.cursor := rfl
@[simp] theorem answered_wait (a : Issuer) (w : RespWord) : (answered a w s).wait = s.wait := rfl
@[simp] theorem answered_origin (a : Issuer) (w : RespWord) : (answered a w s).origin = s.origin := rfl
@[simp] theorem answered_pend (a : Issuer) (w : RespWord) : (answered a w s).pend = s.pend := rfl
@[simp] theorem answered_env (a : Issuer) (w : RespWord) : (answered a w s).env = s.env := rfl
@[simp] theorem answered_obs (a : Issuer) (w : RespWord) : (answered a w s).obs = .response a w :: s.obs := rfl

/-! ### takeAnswer -/

@[simp] theorem takeAnswer_cur : (takeAnswer s).cur = s.cur := by unfold takeAnswer; split <;> rfl
@[simp] theorem takeAnswer_prev : (takeAnswer s).prev = s.prev := by unfold takeAnswer; split <;> rfl
@[simp] theorem takeAnswer_dir : (takeAnswer s).dir = s.dir := by unfold takeAnswer; split <;> rfl
@[simp] theorem takeAnswer_intent : (takeAnswer s).intent = s.intent := by unfold takeAnswer; split <;> rfl
@[simp] theorem takeAnswer_bind : (takeAnswer s).bind = s.bind := by unfold takeAnswer; split <;> rfl
@[simp] theorem takeAnswer_ign : (takeAnswer s).ign = s.ign := by unfold takeAnswer; split <;> rfl
@[simp] theorem takeAnswer_ten : (takeAnswer s).ten = s.ten := by unfold takeAnswer; split <;> rfl
@[simp] theorem takeAnswer_busy : (takeAnswer s).busy = s.busy := by unfold takeAnswer; split <;> rfl
@[simp] theorem takeAnswer_cursor : (takeAnswer s).cursor = s.cursor := by unfold takeAnswer; split <;> rfl
@[simp] theorem takeAnswer_wait : (takeAnswer s).wait = s.wait := by unfold takeAnswer; split <;> rfl
@[simp] theorem takeAnswer_origin : (takeAnswer s).origin = s.origin := by unfold takeAnswer; split <;> rfl
@[simp] theorem takeAnswer_pend : (takeAnswer s).pend = s.pend := by unfold takeAnswer; split <;> rfl
@[simp] theorem takeAnswer_obs : (takeAnswer s).obs = s.obs := by unfold takeAnswer; split <;> rfl

/-! ### portRead -/

@[simp] theorem portRead_cur : (portRead s).cur = s.cur := by simp [portRead]
@[simp] theorem portRead_prev : (portRead s).prev = s.prev := by simp [portRead]
@[simp] theorem portRead_dir : (portRead s).dir = s.dir := by simp [portRead]
@[simp] theorem portRead_intent : (portRead s).intent = s.intent := by simp [portRead]
@[simp] theorem portRead_bind : (portRead s).bind = s.bind := by simp [portRead]
@[simp] theorem portRead_ign : (portRead s).ign = s.ign := by simp [portRead]
@[simp] theorem portRead_ten : (portRead s).ten = s.ten := by simp [portRead]
@[simp] theorem portRead_busy : (portRead s).busy = s.busy := by simp [portRead]
@[simp] theorem portRead_cursor : (portRead s).cursor = s.cursor := by simp [portRead]
@[simp] theorem portRead_wait : (portRead s).wait = s.wait := by simp [portRead]
@[simp] theorem portRead_origin : (portRead s).origin = s.origin := by simp [portRead]
@[simp] theorem portRead_pend : (portRead s).pend = s.pend := by simp [portRead]
@[simp] theorem portRead_env : (portRead s).env = (takeAnswer s).env := by simp [portRead]
@[simp] theorem portRead_obs : (portRead s).obs = .portRead Config.devAddr (portAnswer s).byte (portAnswer s).status :: s.obs := by simp [portRead]

/-! ### portWrite -/

@[simp] theorem portWrite_cur (w : Byte) : (portWrite w s).cur = s.cur := by simp [portWrite]
@[simp] theorem portWrite_prev (w : Byte) : (portWrite w s).prev = s.prev := by simp [portWrite]
@[simp] theorem portWrite_dir (w : Byte) : (portWrite w s).dir = s.dir := by simp [portWrite]
@[simp] theorem portWrite_intent (w : Byte) : (portWrite w s).intent = s.intent := by simp [portWrite]
@[simp] theorem portWrite_bind (w : Byte) : (portWrite w s).bind = s.bind := by simp [portWrite]
@[simp] theorem portWrite_ign (w : Byte) : (portWrite w s).ign = s.ign := by simp [portWrite]
@[simp] theorem portWrite_ten (w : Byte) : (portWrite w s).ten = s.ten := by simp [portWrite]
@[simp] theorem portWrite_busy (w : Byte) : (portWrite w s).busy = s.busy := by simp [portWrite]
@[simp] theorem portWrite_cursor (w : Byte) : (portWrite w s).cursor = s.cursor := by simp [portWrite]
@[simp] theorem portWrite_wait (w : Byte) : (portWrite w s).wait = s.wait := by simp [portWrite]
@[simp] theorem portWrite_origin (w : Byte) : (portWrite w s).origin = s.origin := by simp [portWrite]
@[simp] theorem portWrite_pend (w : Byte) : (portWrite w s).pend = s.pend := by simp [portWrite]
@[simp] theorem portWrite_env (w : Byte) : (portWrite w s).env = (takeAnswer s).env := by simp [portWrite]
@[simp] theorem portWrite_obs (w : Byte) : (portWrite w s).obs = .portWrite Config.devAddr w (portAnswer s).status :: s.obs := by simp [portWrite]

/-! ### setBinding -/

@[simp] theorem setBinding_cur (p : Pin) (b : Option Binding) : (setBinding p b s).cur = s.cur := rfl
@[simp] theorem setBinding_prev (p : Pin) (b : Option Binding) : (setBinding p b s).prev = s.prev := rfl
@[simp] theorem setBinding_dir (p : Pin) (b : Option Binding) : (setBinding p b s).dir = s.dir := rfl
@[simp] theorem setBinding_intent (p : Pin) (b : Option Binding) : (setBinding p b s).intent = s.intent := rfl
@[simp] theorem setBinding_bind (p : Pin) (b : Option Binding) : (setBinding p b s).bind = s.bind.set p.val b := rfl
@[simp] theorem setBinding_ign (p : Pin) (b : Option Binding) : (setBinding p b s).ign = s.ign := rfl
@[simp] theorem setBinding_ten (p : Pin) (b : Option Binding) : (setBinding p b s).ten = s.ten := rfl
@[simp] theorem setBinding_busy (p : Pin) (b : Option Binding) : (setBinding p b s).busy = s.busy := rfl
@[simp] theorem setBinding_cursor (p : Pin) (b : Option Binding) : (setBinding p b s).cursor = s.cursor := rfl
@[simp] theorem setBinding_wait (p : Pin) (b : Option Binding) : (setBinding p b s).wait = s.wait := rfl
@[simp] theorem setBinding_origin (p : Pin) (b : Option Binding) : (setBinding p b s).origin = s.origin := rfl
@[simp] theorem setBinding_pend (p : Pin) (b : Option Binding) : (setBinding p b s).pend = s.pend := rfl
@[simp] theorem setBinding_env (p : Pin) (b : Option Binding) : (setBinding p b s).env = s.env := rfl
@[simp] theorem setBinding_obs (p : Pin) (b : Option Binding) : (setBinding p b s).obs = s.obs := rfl

/-! ### enterHandler -/

@[simp] theorem enterHandler_cur (p : Pin) (h : Callback) : (enterHandler p h s).cur = s.cur := rfl
@[simp] theorem enterHandler_prev (p : Pin) (h : Callback) : (enterHandler p h s).prev = s.prev := rfl
@[simp] theorem enterHandler_dir (p : Pin) (h : Callback) : (enterHandler p h s).dir = s.dir := rfl
@[simp] theorem enterHandler_intent (p : Pin) (h : Callback) : (enterHandler p h s).intent = s.intent := rfl
@[simp] theorem enterHandler_bind (p : Pin) (h : Callback) : (enterHandler p h s).bind = s.bind := rfl
@[simp] theorem enterHandler_ign (p : Pin) (h : Callback) : (enterHandler p h s).ign = s.ign := rfl
@[simp] theorem enterHandler_ten (p : Pin) (h : Callback) : (enterHandler p h s).ten = s.ten := rfl
@[simp] theorem enterHandler_busy (p : Pin) (h : Callback) : (enterHandler p h s).busy = s.busy := rfl
@[simp] theorem enterHandler_cursor (p : Pin) (h : Callback) : (enterHandler p h s).cursor = s.cursor := rfl
@[simp] theorem enterHandler_wait (p : Pin) (h : Callback) : (enterHandler p h s).wait = true := rfl
@[simp] theorem enterHandler_origin (p : Pin) (h : Callback) : (enterHandler p h s).origin = s.origin := rfl
@[simp] theorem enterHandler_pend (p : Pin) (h : Callback) : (enterHandler p h s).pend = s.pend := rfl
@[simp] theorem enterHandler_env (p : Pin) (h : Callback) : (enterHandler p h s).env = s.env := rfl
@[simp] theorem enterHandler_obs (p : Pin) (h : Callback) : (enterHandler p h s).obs = .fire p h :: s.obs := rfl

/-! ### leaveHandler -/

@[simp] theorem leaveHandler_cur : (leaveHandler s).cur = s.cur := rfl
@[simp] theorem leaveHandler_prev : (leaveHandler s).prev = s.prev := rfl
@[simp] theorem leaveHandler_dir : (leaveHandler s).dir = s.dir := rfl
@[simp] theorem leaveHandler_intent : (leaveHandler s).intent = s.intent := rfl
@[simp] theorem leaveHandler_bind : (leaveHandler s).bind = s.bind := rfl
@[simp] theorem leaveHandler_ign : (leaveHandler s).ign = s.ign := rfl
@[simp] theorem leaveHandler_ten : (leaveHandler s).ten = s.ten := rfl
@[simp] theorem leaveHandler_busy : (leaveHandler s).busy = s.busy := rfl
@[simp] theorem leaveHandler_cursor : (leaveHandler s).cursor = s.cursor := rfl
@[simp] theorem leaveHandler_wait : (leaveHandler s).wait = false := rfl
@[simp] theorem leaveHandler_origin : (leaveHandler s).origin = s.origin := rfl
@[simp] theorem leaveHandler_pend : (leaveHandler s).pend = s.pend := rfl
@[simp] theorem leaveHandler_env : (leaveHandler s).env = s.env := rfl
@[simp] theorem leaveHandler_obs : (leaveHandler s).obs = s.obs := rfl

/-! ### takeChoice -/

@[simp] theorem takeChoice_cur : (takeChoice s).cur = s.cur := by unfold takeChoice; split <;> rfl
@[simp] theorem takeChoice_prev : (takeChoice s).prev = s.prev := by unfold takeChoice; split <;> rfl
@[simp] theorem takeChoice_dir : (takeChoice s).dir = s.dir := by unfold takeChoice; split <;> rfl
@[simp] theorem takeChoice_intent : (takeChoice s).intent = s.intent := by unfold takeChoice; split <;> rfl
@[simp] theorem takeChoice_bind : (takeChoice s).bind = s.bind := by unfold takeChoice; split <;> rfl
@[simp] theorem takeChoice_ign : (takeChoice s).ign = s.ign := by unfold takeChoice; split <;> rfl
@[simp] theorem takeChoice_ten : (takeChoice s).ten = s.ten := by unfold takeChoice; split <;> rfl
@[simp] theorem takeChoice_busy : (takeChoice s).busy = s.busy := by unfold takeChoice; split <;> rfl
@[simp] theorem takeChoice_cursor : (takeChoice s).cursor = s.cursor := by unfold takeChoice; split <;> rfl
@[simp] theorem takeChoice_wait : (takeChoice s).wait = s.wait := by unfold takeChoice; split <;> rfl
@[simp] theorem takeChoice_origin : (takeChoice s).origin = s.origin := by unfold takeChoice; split <;> rfl
@[simp] theorem takeChoice_pend : (takeChoice s).pend = s.pend := by unfold takeChoice; split <;> rfl
@[simp] theorem takeChoice_obs : (takeChoice s).obs = s.obs := by unfold takeChoice; split <;> rfl

/-! ### pollRespond -/

@[simp] theorem pollRespond_cur (o : Origin) (c : Code) (d : Byte) : (pollRespond o c d s).cur = s.cur := by cases o <;> rfl
@[simp] theorem pollRespond_prev (o : Origin) (c : Code) (d : Byte) : (pollRespond o c d s).prev = s.prev := by cases o <;> rfl
@[simp] theorem pollRespond_dir (o : Origin) (c : Code) (d : Byte) : (pollRespond o c d s).dir = s.dir := by cases o <;> rfl
@[simp] theorem pollRespond_intent (o : Origin) (c : Code) (d : Byte) : (pollRespond o c d s).intent = s.intent := by cases o <;> rfl
@[simp] theorem pollRespond_bind (o : Origin) (c : Code) (d : Byte) : (pollRespond o c d s).bind = s.bind := by cases o <;> rfl
@[simp] theorem pollRespond_ign (o : Origin) (c : Code) (d : Byte) : (pollRespond o c d s).ign = s.ign := by cases o <;> rfl
@[simp] theorem pollRespond_ten (o : Origin) (c : Code) (d : Byte) : (pollRespond o c d s).ten = s.ten := by cases o <;> rfl
@[simp] theorem pollRespond_busy (o : Origin) (c : Code) (d : Byte) : (pollRespond o c d s).busy = s.busy := by cases o <;> rfl
@[simp] theorem pollRespond_cursor (o : Origin) (c : Code) (d : Byte) : (pollRespond o c d s).cursor = s.cursor := by cases o <;> rfl
@[simp] theorem pollRespond_wait (o : Origin) (c : Code) (d : Byte) : (pollRespond o c d s).wait = s.wait := by cases o <;> rfl
@[simp] theorem pollRespond_origin (o : Origin) (c : Code) (d : Byte) : (pollRespond o c d s).origin = s.origin := by cases o <;> rfl
@[simp] theorem pollRespond_pend (o : Origin) (c : Code) (d : Byte) : (pollRespond o c d s).pend = s.pend := by cases o <;> rfl
@[simp] theorem pollRespond_env (o : Origin) (c : Code) (d : Byte) : (pollRespond o c d s).env = s.env := by cases o <;> rfl

/-! ### What the environment keeps -/

@[simp] theorem takeAnswer_env_main : (takeAnswer s).env.main = s.env.main := by unfold takeAnswer; split <;> rfl
@[simp] theorem takeAnswer_env_callback : (takeAnswer s).env.callback = s.env.callback := by
  unfold takeAnswer; split <;> rfl
@[simp] theorem takeAnswer_env_sched : (takeAnswer s).env.sched = s.env.sched := by unfold takeAnswer; split <;> rfl
@[simp] theorem takeChoice_env_main : (takeChoice s).env.main = s.env.main := by unfold takeChoice; split <;> rfl
@[simp] theorem takeChoice_env_callback : (takeChoice s).env.callback = s.env.callback := by
  unfold takeChoice; split <;> rfl
@[simp] theorem takeChoice_env_port : (takeChoice s).env.port = s.env.port := by unfold takeChoice; split <;> rfl

/-! ### The twelve items as one value -/

@[simp] theorem arch_observe (o : Obs) : arch (observe o s) = arch s := rfl
@[simp] theorem arch_respond (a : Issuer) (c : Code) (d : Byte) : arch (respond a c d s) = arch s := rfl
@[simp] theorem arch_answered (a : Issuer) (w : RespWord) : arch (answered a w s) = arch s := rfl
@[simp] theorem arch_takeAnswer : arch (takeAnswer s) = arch s := by unfold takeAnswer; split <;> rfl
@[simp] theorem arch_portRead : arch (portRead s) = arch s := by simp [portRead]
@[simp] theorem arch_portWrite (w : Byte) : arch (portWrite w s) = arch s := by simp [portWrite]
@[simp] theorem arch_takeChoice : arch (takeChoice s) = arch s := by unfold takeChoice; split <;> rfl
@[simp] theorem arch_pollRespond (o : Origin) (c : Code) (d : Byte) : arch (pollRespond o c d s) = arch s := by
  cases o <;> rfl

/-! ### What an observer counts -/

theorem portCount_of_obs {s t : State} (h : t.obs = s.obs) : portCount t = portCount s := by simp [portCount, h]
theorem readCount_of_obs {s t : State} (h : t.obs = s.obs) : readCount t = readCount s := by simp [readCount, h]
theorem writeCount_of_obs {s t : State} (h : t.obs = s.obs) : writeCount t = writeCount s := by simp [writeCount, h]
theorem fires_of_obs {s t : State} (h : t.obs = s.obs) : fires t = fires s := by simp [fires, h]
theorem responseCount_of_obs {s t : State} (a : Issuer) (h : t.obs = s.obs) : responseCount a t = responseCount a s := by
  simp [responseCount, h]

@[simp] theorem portCount_answered (a : Issuer) (w : RespWord) : portCount (answered a w s) = portCount s := by
  simp [portCount, isPort]
@[simp] theorem portCount_portRead : portCount (portRead s) = portCount s + 1 := by
  simp [portCount, isPort, List.countP_cons]
@[simp] theorem portCount_portWrite (w : Byte) : portCount (portWrite w s) = portCount s + 1 := by
  simp [portCount, isPort, List.countP_cons]
@[simp] theorem portCount_pollRespond (o : Origin) (c : Code) (d : Byte) :
    portCount (pollRespond o c d s) = portCount s := by
  cases o
  · exact portCount_answered s _ _
  · rfl
@[simp] theorem readCount_answered (a : Issuer) (w : RespWord) : readCount (answered a w s) = readCount s := by
  simp [readCount, isRead]
@[simp] theorem readCount_portRead : readCount (portRead s) = readCount s + 1 := by
  simp [readCount, isRead, List.countP_cons]
@[simp] theorem readCount_portWrite (w : Byte) : readCount (portWrite w s) = readCount s := by
  simp [readCount, isRead]
@[simp] theorem readCount_pollRespond (o : Origin) (c : Code) (d : Byte) : readCount (pollRespond o c d s) = readCount s := by
  cases o
  · exact readCount_answered s _ _
  · rfl
@[simp] theorem writeCount_answered (a : Issuer) (w : RespWord) : writeCount (answered a w s) = writeCount s := by
  simp [writeCount, isWrite]
@[simp] theorem writeCount_portRead : writeCount (portRead s) = writeCount s := by
  simp [writeCount, isWrite]
@[simp] theorem writeCount_portWrite (w : Byte) : writeCount (portWrite w s) = writeCount s + 1 := by
  simp [writeCount, isWrite, List.countP_cons]
@[simp] theorem writeCount_pollRespond (o : Origin) (c : Code) (d : Byte) : writeCount (pollRespond o c d s) = writeCount s := by
  cases o
  · exact writeCount_answered s _ _
  · rfl
@[simp] theorem responseCount_answered (a b : Issuer) (w : RespWord) :
    responseCount a (answered b w s) = responseCount a s + (if b = a then 1 else 0) := by
  simp [responseCount, isResponseTo, List.countP_cons]
@[simp] theorem responseCount_portRead (a : Issuer) : responseCount a (portRead s) = responseCount a s := by
  simp [responseCount, isResponseTo]
@[simp] theorem responseCount_portWrite (a : Issuer) (w : Byte) :
    responseCount a (portWrite w s) = responseCount a s := by
  simp [responseCount, isResponseTo]
@[simp] theorem fires_answered (a : Issuer) (w : RespWord) : fires (answered a w s) = fires s := by
  simp [fires, fireOf, List.filterMap_cons]
@[simp] theorem fires_portRead : fires (portRead s) = fires s := by simp [fires, fireOf, List.filterMap_cons]
@[simp] theorem fires_portWrite (w : Byte) : fires (portWrite w s) = fires s := by simp [fires, fireOf, List.filterMap_cons]
@[simp] theorem fires_pollRespond (o : Origin) (c : Code) (d : Byte) : fires (pollRespond o c d s) = fires s := by
  cases o
  · exact fires_answered s _ _
  · rfl
@[simp] theorem fires_enterHandler (p : Pin) (h : Callback) : fires (enterHandler p h s) = (p, h) :: fires s := by
  simp [fires, fireOf]

end Sys2Proof.Machine
end

