-- ==== Sys2Proof/Laws/Ops.lean ====
section
/-! SUPPORT. For each shared operation, once, everything it can do. -/

namespace Sys2Proof.Machine

/-! ### Pins, responses, transactions -/

theorem pinOf_eq_some {pin : BitVec 4} {p : Pin} (h : pin.toNat = p.val) : pinOf pin = some p := by
  unfold pinOf
  rw [dif_pos (by omega)]
  exact congrArg some (Fin.ext h)

theorem pinOf_eq_none {pin : BitVec 4} (h : 8 ≤ pin.toNat) : pinOf pin = none := by
  unfold pinOf
  rw [dif_neg (by omega)]

/-- A PIN field names a pin or is 8 or above. -/
theorem pin_cases (pin : BitVec 4) : (∃ p : Pin, pin.toNat = p.val) ∨ 8 ≤ pin.toNat := by
  by_cases h : pin.toNat < 8
  · exact .inl ⟨⟨_, h⟩, rfl⟩
  · exact .inr (by omega)

theorem respond_eq_answered (a : Issuer) (c : Code) (d : Byte) (s : State) :
    respond a c d s = answered a (respWord c d) s := rfl

theorem withPin_eq {pin : BitVec 4} {p : Pin} (h : pin.toNat = p.val) (f : Pin → State → State) (s : State) :
    withPin pin f s = f p s := by simp [withPin, pinOf_eq_some h]

theorem withPin_invalid {pin : BitVec 4} (h : 8 ≤ pin.toNat) (f : Pin → State → State) (s : State) :
    withPin pin f s = answered (issuer s) 0x500#11 s := by simp [withPin, pinOf_eq_none h]; rfl

/-- What a per-pin command can do. -/
theorem withPin_cases (pin : BitVec 4) (f : Pin → State → State) (s : State) :
    (∃ p : Pin, pin.toNat = p.val ∧ withPin pin f s = f p s) ∨
      (8 ≤ pin.toNat ∧ withPin pin f s = answered (issuer s) 0x500#11 s) :=
  (pin_cases pin).elim (fun ⟨p, h⟩ => .inl ⟨p, h, withPin_eq h f s⟩) fun h => .inr ⟨h, withPin_invalid h f s⟩

theorem codeOfStatus_failure {st : PortStatus} : respWord (codeOfStatus st) 0x00#8 = failureWord st := by
  cases st <;> rfl

/-- What a committing write can do: commit and answer the byte, or answer the status and commit nothing. -/
theorem writeCommit_cases (w : Byte) (commit : State → State) (s : State) :
    ((portAnswer s).status = .success ∧
      writeCommit w commit s = answered (issuer s) (successWord w) { commit (portWrite w s) with cur := w }) ∨
    ((portAnswer s).status ≠ .success ∧
      writeCommit w commit s = answered (issuer s) (failureWord (portAnswer s).status) (portWrite w s)) := by
  unfold writeCommit
  split
  · exact .inl ⟨‹_›, rfl⟩
  · refine .inr ⟨‹_›, ?_⟩
    rw [respond_eq_answered, codeOfStatus_failure]

/-- What a fresh read can do: set CUR and answer the data, or answer the status. -/
theorem freshRead_cases (data : Byte → Byte) (s : State) :
    ((portAnswer s).status = .success ∧
      freshRead data s = answered (issuer s) (successWord (data (portAnswer s).byte))
        { portRead s with cur := (portAnswer s).byte }) ∨
    ((portAnswer s).status ≠ .success ∧
      freshRead data s = answered (issuer s) (failureWord (portAnswer s).status) (portRead s)) := by
  unfold freshRead
  split
  · exact .inl ⟨‹_›, rfl⟩
  · refine .inr ⟨‹_›, ?_⟩
    rw [respond_eq_answered, codeOfStatus_failure]

/-- What a poll start can do: consume the IgnoreFlag, start the dispatch, or report the failed read. -/
theorem pollStart_cases (o : Origin) (s : State) :
    (s.ign = true ∧ pollStart o s = pollRespond o .success pollIgnored { s with ign := false }) ∨
    (s.ign = false ∧ (portAnswer s).status = .success ∧
      pollStart o s = { portRead s with
        prev := s.cur, cur := (portAnswer s).byte, busy := true, cursor := 0, wait := false, origin := o }) ∨
    (s.ign = false ∧ (portAnswer s).status ≠ .success ∧
      pollStart o s = pollRespond o (codeOfStatus (portAnswer s).status) 0x00#8 (portRead s)) := by
  unfold pollStart
  split
  · exact .inl ⟨‹_›, rfl⟩
  · have hi : s.ign = false := by simpa using ‹¬ s.ign = true›
    split
    · exact .inr (.inl ⟨hi, ‹_›, rfl⟩)
    · exact .inr (.inr ⟨hi, ‹_›, rfl⟩)

theorem pollRespond_cmd (c : Code) (d : Byte) (s : State) : pollRespond .cmd c d s = answered .main (respWord c d) s :=
  rfl

theorem pollRespond_auto (c : Code) (d : Byte) (s : State) : pollRespond .auto c d s = s := rfl

/-! ### The FireSet -/

/-- What pin p's lane gives to the FireSet. -/
def laneFire (s : State) (p : Pin) : Option (Pin × Callback) :=
  match binding s p with
  | some b => if edgeMatch b.mode (getBit s.prev p) (getBit s.cur p) then some (p, b.handle) else none
  | none => none

theorem fireSet_eq (s : State) : fireSet s = (List.finRange 8).filterMap (laneFire s) := rfl

theorem firesBelow_eq (k : Nat) (s : State) :
    firesBelow k s = (List.finRange 8).filterMap fun p => if p.val < k then laneFire s p else none := by
  rw [firesBelow, fireSet_eq, List.filter_filterMap]
  congr 1
  funext p
  unfold laneFire
  cases binding s p with
  | none => simp
  | some b =>
    by_cases h : edgeMatch b.mode (getBit s.prev p) (getBit s.cur p) = true <;> simp [h, Option.filter]

theorem firesBelow_zero (s : State) : firesBelow 0 s = [] := by simp [firesBelow]

theorem firesBelow_eight (s : State) : firesBelow 8 s = fireSet s := by
  rw [firesBelow, List.filter_eq_self]
  intro f _
  simp [f.1.isLt]

/-- Pin p adds its own lane to the part of the FireSet below it. -/
theorem firesBelow_succ (s : State) (p : Pin) : firesBelow (p.val + 1) s = firesBelow p.val s ++ (laneFire s p).toList := by
  have h8 : List.finRange 8 = [0, 1, 2, 3, 4, 5, 6, 7] := by decide
  rw [firesBelow_eq, firesBelow_eq, h8]
  fin_cases p <;> simp [List.filterMap_cons] <;> (repeat' split) <;> simp_all

/-! ### The engine -/

/-- What examining a pin can do: fire it, or only advance CURSOR. -/
theorem examine_cases (p : Pin) (s : State) :
    (∃ b, binding s p = some b ∧ edgeMatch b.mode (getBit s.prev p) (getBit s.cur p) = true ∧
      examine p s = enterHandler p b.handle { s with cursor := p.succ }) ∨
    ((∀ b, binding s p = some b → edgeMatch b.mode (getBit s.prev p) (getBit s.cur p) = false) ∧
      examine p s = { s with cursor := p.succ }) := by
  unfold examine
  cases hb : binding s p with
  | none => exact .inr ⟨by simp, rfl⟩
  | some b =>
    by_cases hm : edgeMatch b.mode (getBit s.prev p) (getBit s.cur p) = true
    · exact .inl ⟨b, rfl, hm, by simp [hm]⟩
    · refine .inr ⟨fun c hc => ?_, by simp [hm]⟩
      cases hc; simpa using hm

/-- What DSTEP can do: examine the pin CURSOR names, or retire. -/
theorem dstep_cases (s : State) :
    (∃ p : Pin, s.cursor = p.castSucc ∧ dstep s = examine p s) ∨ (s.cursor = 8 ∧ dstep s = retire s) := by
  unfold dstep
  by_cases h : s.cursor.val < 8
  · exact .inl ⟨⟨s.cursor.val, h⟩, Fin.ext rfl, by simp [h]⟩
  · refine .inr ⟨?_, by simp [h]⟩
    have := s.cursor.isLt
    exact Fin.ext (by simp; omega)

/-- What a trigger can do: be lost, be deferred, or start a poll. -/
theorem trigStep_cases (s : State) :
    (s.ten = false ∧ trigStep s = s) ∨
    (s.ten = true ∧ (s.busy = true ∨ s.pend = true) ∧ trigStep s = { s with pend := true }) ∨
    (s.ten = true ∧ s.busy = false ∧ s.pend = false ∧ trigStep s = pollStart .auto s) := by
  unfold trigStep
  cases ht : s.ten <;> cases hb : s.busy <;> cases hp : s.pend <;> simp

/-- What an engine turn can do. -/
theorem engineStep_cases (s : State) :
    (s.busy = true ∧ s.wait = false ∧ engineStep s = dstep s) ∨
    (s.busy = false ∧ s.pend = true ∧ engineStep s = deferStep s) ∨
    (((s.busy = true ∧ s.wait = true) ∨ (s.busy = false ∧ s.pend = false)) ∧ engineStep s = s) := by
  unfold engineStep dstepEnabled deferEnabled
  cases hb : s.busy <;> cases hw : s.wait <;> cases hp : s.pend <;> simp

/-! ### Commands -/

/-- Every command answers a next state. -/
theorem exec_next (i : Instr) (s : State) : ∃ t, exec i s = .next t := by
  cases i <;> exact ⟨_, rfl⟩

theorem runCommand_next (c : Command) (s : State) : ∃ t, runCommand c s = .next t := by
  unfold runCommand
  split
  · exact exec_next _ _
  · exact ⟨_, rfl⟩

theorem issuer_of_busy {s : State} (h : s.busy = true) : issuer s = .callback := by simp [issuer, h]

theorem issuer_of_not_busy {s : State} (h : s.busy = false) : issuer s = .main := by simp [issuer, h]

end Sys2Proof.Machine
end

