-- ==== Sys2Proof/Laws/Exec.lean ====
section
/-! SUPPORT. Everything a command can do, said once over the shared operations. -/

namespace Sys2Proof.Machine

/-- A committing write of a new DIR and a new INTENT, each of which may be the old one. -/
def writeShadow (w d x : Byte) (s : State) : State :=
  writeCommit w (fun u => { u with dir := d, intent := x }) s

theorem applyDirBit_eq (p : Pin) (out : Bool) (s : State) :
    applyDirBit p out s =
      writeShadow (merge (putBit s.dir p out) s.intent s.cur) (putBit s.dir p out) s.intent s := by
  unfold applyDirBit writeShadow writeCommit
  dsimp only
  split <;> simp [portWrite, observe]

theorem setOutBit_eq (p : Pin) (v : Bool) (s : State) :
    setOutBit p v s =
      writeShadow (merge s.dir (putBit s.intent p v) s.cur) s.dir (putBit s.intent p v) s := by
  unfold setOutBit writeShadow writeCommit
  dsimp only
  split <;> simp [portWrite, observe]

theorem writeAll_eq (w : Byte) (s : State) : writeAll w s = writeShadow w s.dir w s := by
  unfold writeAll writeShadow writeCommit
  split <;> simp [portWrite, observe]

/-- What a committing write can do. -/
theorem writeShadow_cases (w d x : Byte) (s : State) :
    ((portAnswer s).status = .success ∧
      writeShadow w d x s =
        answered (issuer s) (successWord w) { portWrite w s with dir := d, intent := x, cur := w }) ∨
    ((portAnswer s).status ≠ .success ∧
      writeShadow w d x s = answered (issuer s) (failureWord (portAnswer s).status) (portWrite w s)) :=
  writeCommit_cases w (fun u => { u with dir := d, intent := x }) s

/-- A command whose meaning is a committing write, with the DIR and INTENT it commits. -/
def Writes (i : Instr) (s : State) (d x : Byte) : Prop :=
  (∃ pin out, i = .setdir pin out true ∧ pin.toNat < 8 ∧ x = s.intent) ∨
  (d = s.dir ∧ ((∃ pin, ((∃ v, i = .setout pin v) ∨ i = .toggle pin) ∧ pin.toNat < 8) ∨
    (∃ v, i = .applyall v) ∨ i = .clearall ∨ i = .setall))

/-- Everything a command can do. -/
theorem exec_cases {i : Instr} {s t : State} (h : exec i s = .next t) :
    (∃ pin, perPinOperand i = some pin ∧ 8 ≤ pin.toNat ∧ t = answered (issuer s) 0x500#11 s) ∨
    (∃ pin, i = .pinmode pin .reserved ∧ t = answered (issuer s) 0x600#11 s) ∨
    (∃ pin b, i = .getin pin ∧ t = answered (issuer s) (successWord (zextBit b)) s) ∨
    (∃ d, ((∃ pin out, i = .setdir pin out false) ∨ ∃ pin pm, i = .pinmode pin pm) ∧
      t = answered (issuer s) 0x000#11 { s with dir := d }) ∨
    (∃ p b, ((∃ pin mode k, i = .attach pin mode k) ∨ ∃ pin, i = .detach pin) ∧
      t = answered (issuer s) 0x000#11 (setBinding p b s)) ∨
    (∃ en, i = .inten en ∧ t = answered (issuer s) 0x000#11 { s with ten := en }) ∨
    (i = .ignore ∧ t = answered (issuer s) 0x000#11 { s with ign := true }) ∨
    (∃ w d x, Writes i s d x ∧ t = writeShadow w d x s) ∨
    (∃ data, ((∃ pin, i = .dread pin ∧ pin.toNat < 8) ∨ i = .pread) ∧ t = freshRead data s) ∨
    (i = .poll ∧ s.busy = false ∧ t = pollStart .cmd s) ∨
    (i = .poll ∧ s.busy = true ∧ t = answered (issuer s) 0x002#11 { s with pend := true }) := by
  have inj : ∀ {a b : State}, (Host.Outcome.next a : Host.Outcome State Fault Refusal) = .next b → b = a :=
    fun e => by injection e with e; exact e.symm
  cases i with
  | setdir pin out apply =>
    rcases withPin_cases pin (fun p => if apply then applyDirBit p out else setDirBit p out) s with
      ⟨p, hp, e⟩ | ⟨hp, e⟩ <;> have ht := (inj h).trans e
    · cases apply with
      | false => exact .inr (.inr (.inr (.inl ⟨_, .inl ⟨_, _, rfl⟩, ht⟩)))
      | true =>
        rw [if_pos rfl, applyDirBit_eq] at ht
        exact .inr (.inr (.inr (.inr (.inr (.inr (.inr (.inl
          ⟨_, _, _, .inl ⟨_, _, rfl, by omega, rfl⟩, ht⟩)))))))
    · exact .inl ⟨pin, rfl, hp, ht⟩
  | setout pin v =>
    rcases withPin_cases pin (fun p => setOutBit p v) s with ⟨p, hp, e⟩ | ⟨hp, e⟩ <;> have ht := (inj h).trans e
    · rw [setOutBit_eq] at ht
      exact .inr (.inr (.inr (.inr (.inr (.inr (.inr (.inl
        ⟨_, _, _, .inr ⟨rfl, .inl ⟨_, .inl ⟨_, rfl⟩, by omega⟩⟩, ht⟩)))))))
    · exact .inl ⟨pin, rfl, hp, ht⟩
  | getin pin =>
    rcases withPin_cases pin (fun p t => respond (issuer t) .success (zextBit (getBit t.cur p)) t) s with
      ⟨p, hp, e⟩ | ⟨hp, e⟩ <;> have ht := (inj h).trans e
    · exact .inr (.inr (.inl ⟨_, _, rfl, ht⟩))
    · exact .inl ⟨pin, rfl, hp, ht⟩
  | applyall v =>
    exact .inr (.inr (.inr (.inr (.inr (.inr (.inr (.inl
      ⟨_, _, _, .inr ⟨rfl, .inr (.inl ⟨v, rfl⟩)⟩, (inj h).trans (writeAll_eq _ _)⟩)))))))
  | clearall =>
    exact .inr (.inr (.inr (.inr (.inr (.inr (.inr (.inl
      ⟨_, _, _, .inr ⟨rfl, .inr (.inr (.inl rfl))⟩, (inj h).trans (writeAll_eq _ _)⟩)))))))
  | setall =>
    exact .inr (.inr (.inr (.inr (.inr (.inr (.inr (.inl
      ⟨_, _, _, .inr ⟨rfl, .inr (.inr (.inr rfl))⟩, (inj h).trans (writeAll_eq _ _)⟩)))))))
  | attach pin mode k =>
    rcases withPin_cases pin (fun p t => respond (issuer t) .success 0x00#8 (setBinding p (some ⟨mode, k⟩) t)) s with
      ⟨p, hp, e⟩ | ⟨hp, e⟩ <;> have ht := (inj h).trans e
    · exact .inr (.inr (.inr (.inr (.inl ⟨_, _, .inl ⟨_, _, _, rfl⟩, ht⟩))))
    · exact .inl ⟨pin, rfl, hp, ht⟩
  | detach pin =>
    rcases withPin_cases pin (fun p t => respond (issuer t) .success 0x00#8 (setBinding p none t)) s with
      ⟨p, hp, e⟩ | ⟨hp, e⟩ <;> have ht := (inj h).trans e
    · exact .inr (.inr (.inr (.inr (.inl ⟨_, _, .inr ⟨_, rfl⟩, ht⟩))))
    · exact .inl ⟨pin, rfl, hp, ht⟩
  | poll =>
    have ht := inj h
    rcases Bool.eq_false_or_eq_true s.busy with hb | hb
    · simp only [issuer_of_busy hb] at ht ⊢
      exact .inr (.inr (.inr (.inr (.inr (.inr (.inr (.inr (.inr (.inr ⟨trivial, hb, ht⟩)))))))))
    · simp only [issuer_of_not_busy hb] at ht
      exact .inr (.inr (.inr (.inr (.inr (.inr (.inr (.inr (.inr (.inl ⟨rfl, hb, ht⟩)))))))))
  | inten en => exact .inr (.inr (.inr (.inr (.inr (.inl ⟨en, rfl, inj h⟩)))))
  | ignore => exact .inr (.inr (.inr (.inr (.inr (.inr (.inl ⟨rfl, inj h⟩))))))
  | pinmode pin pm =>
    cases pm with
    | reserved => exact .inr (.inl ⟨pin, rfl, inj h⟩)
    | _ =>
      rcases withPin_cases pin (fun p => setDirBit p (pinModeIsOutput _)) s with
        ⟨p, hp, e⟩ | ⟨hp, e⟩ <;> have ht := (inj h).trans e
      · exact .inr (.inr (.inr (.inl ⟨_, .inr ⟨_, _, rfl⟩, ht⟩)))
      · exact .inl ⟨pin, rfl, hp, ht⟩
  | toggle pin =>
    rcases withPin_cases pin (fun p t => setOutBit p (!getBit t.intent p) t) s with
      ⟨p, hp, e⟩ | ⟨hp, e⟩ <;> have ht := (inj h).trans e
    · rw [setOutBit_eq] at ht
      exact .inr (.inr (.inr (.inr (.inr (.inr (.inr (.inl
        ⟨_, _, _, .inr ⟨rfl, .inl ⟨_, .inr rfl, by omega⟩⟩, ht⟩)))))))
    · exact .inl ⟨pin, rfl, hp, ht⟩
  | dread pin =>
    rcases withPin_cases pin (fun p => freshRead fun b => zextBit (getBit b p)) s with
      ⟨p, hp, e⟩ | ⟨hp, e⟩ <;> have ht := (inj h).trans e
    · exact .inr (.inr (.inr (.inr (.inr (.inr (.inr (.inr (.inl
        ⟨_, .inl ⟨_, rfl, by omega⟩, ht⟩))))))))
    · exact .inl ⟨pin, rfl, hp, ht⟩
  | pread =>
    exact .inr (.inr (.inr (.inr (.inr (.inr (.inr (.inr (.inl ⟨_, .inr rfl, inj h⟩))))))))

/-- Everything an accepted command word can do: run a legal command, or answer ILLEGAL. -/
theorem runCommand_cases {c : Command} {s t : State} (h : runCommand c s = .next t) :
    (∃ i, decode c.word c.handle = .ok i ∧ exec i s = .next t) ∨
    ((∃ e, decode c.word c.handle = .error e) ∧ t = answered (issuer s) 0x600#11 s) := by
  unfold runCommand at h
  split at h
  · exact .inl ⟨_, ‹_›, h⟩
  · exact .inr ⟨⟨_, ‹_›⟩, by injection h with h; exact h.symm⟩

end Sys2Proof.Machine
end

