-- ==== Sys2Proof/Laws/PerInstr.lean ====
section
/-! SUPPORT. For each command, as syntax: its word is of its row of spec/opcode_table.json (match and mask). -/

namespace Sys2Proof.Laws.TableRow

/-- The mask and the match of a command's row. -/
def row : Instr → Word × Word
  | .setdir _ _ _ => (0xF0FC#16, 0x1000#16)
  | .setout _ _ => (0xF0FE#16, 0x2000#16)
  | .getin _ => (0xF0FF#16, 0x3000#16)
  | .applyall _ => (0xFF00#16, 0x4000#16)
  | .clearall => (0xFFFF#16, 0x5000#16)
  | .setall => (0xFFFF#16, 0x6000#16)
  | .attach _ _ _ => (0xF0FC#16, 0x7000#16)
  | .detach _ => (0xF0FF#16, 0x8000#16)
  | .poll => (0xFFFF#16, 0x9000#16)
  | .inten _ => (0xFFFE#16, 0xA000#16)
  | .ignore => (0xFFFF#16, 0xB000#16)
  | .pinmode _ _ => (0xF0FC#16, 0xC000#16)
  | .toggle _ => (0xF0FF#16, 0xD000#16)
  | .dread _ => (0xF0FF#16, 0xE000#16)
  | .pread => (0xFFFF#16, 0xF000#16)

/-- The word's masked bits are the row's match. -/
def Statement (i : Instr) : Prop := encode i &&& (row i).1 = (row i).2

theorem setdir (pin : BitVec 4) (out apply : Bool) : Statement (.setdir pin out apply) := by
  unfold Statement; revert pin out apply; decide
theorem setout (pin : BitVec 4) (v : Bool) : Statement (.setout pin v) := by
  unfold Statement; revert pin v; decide
theorem getin (pin : BitVec 4) : Statement (.getin pin) := by unfold Statement; revert pin; decide
theorem applyall (value : Byte) : Statement (.applyall value) := by unfold Statement; revert value; decide
theorem clearall : Statement .clearall := by unfold Statement; decide
theorem setall : Statement .setall := by unfold Statement; decide
theorem attach (pin : BitVec 4) (mode : IntMode) (h : Callback) : Statement (.attach pin mode h) := by
  change commandWord 0x7#4 pin (0#6 ++ modeBits mode) &&& 0xF0FC#16 = 0x7000#16
  cases mode <;> revert pin <;> decide
theorem detach (pin : BitVec 4) : Statement (.detach pin) := by unfold Statement; revert pin; decide
theorem poll : Statement .poll := by unfold Statement; decide
theorem inten (en : Bool) : Statement (.inten en) := by unfold Statement; revert en; decide
theorem ignore : Statement .ignore := by unfold Statement; decide
theorem pinmode (pin : BitVec 4) (pm : PinMode) : Statement (.pinmode pin pm) := by
  change commandWord 0xC#4 pin (0#6 ++ pinModeBits pm) &&& 0xF0FC#16 = 0xC000#16
  cases pm <;> revert pin <;> decide
theorem toggle (pin : BitVec 4) : Statement (.toggle pin) := by unfold Statement; revert pin; decide
theorem dread (pin : BitVec 4) : Statement (.dread pin) := by unfold Statement; revert pin; decide
theorem pread : Statement .pread := by unfold Statement; decide

end Sys2Proof.Laws.TableRow
end

