-- ==== Sys2Proof/Laws/Step.lean ====
section
/-! SUPPORT. What one step of the machine can do, said once. -/

namespace Sys2Proof.Machine

/-- What a turn of MAIN can do: hold, or have its next command run. -/
theorem mainStep_cases (s : State) :
    mainStep s = .next s ∨
    ∃ c rest, s.env.main = c :: rest ∧ s.busy = false ∧ s.pend = false ∧
      mainStep s = runCommand c { s with env := { s.env with main := rest } } := by
  unfold mainStep
  split
  · rename_i c rest h
    by_cases ha : mainAccepted s = true
    · have hb : s.busy = false ∧ s.pend = false := by simpa [mainAccepted] using ha
      exact .inr ⟨c, rest, h, hb.1, hb.2, by simp [ha]⟩
    · exact .inl (by simp [ha])
  · exact .inl rfl

/-- What a turn of CB can do: nothing, have its next command run, or end the callback. -/
theorem callbackStep_cases (s : State) :
    callbackStep s = .next s ∨
    (∃ c rest, s.env.callback = .command c :: rest ∧ s.busy = true ∧ s.wait = true ∧
      callbackStep s = runCommand c { s with env := { s.env with callback := rest } }) ∨
    (∃ rest, s.env.callback = .done :: rest ∧ s.busy = true ∧ s.wait = true ∧
      callbackStep s = .next (callbackDone { s with env := { s.env with callback := rest } })) := by
  have hr : callbackRunning s = true → s.busy = true ∧ s.wait = true := by simp [callbackRunning]
  unfold callbackStep
  split
  · rename_i c rest h
    by_cases ha : callbackRunning s = true
    · exact .inr (.inl ⟨c, rest, h, (hr ha).1, (hr ha).2, by simp [ha]⟩)
    · exact .inl (by simp [ha])
  · rename_i rest h
    by_cases ha : callbackRunning s = true
    · exact .inr (.inr ⟨rest, h, (hr ha).1, (hr ha).2, by simp [ha]⟩)
    · exact .inl (by simp [ha])
  · exact .inl rfl

/-- What a step can do, for whichever agent is chosen: from `u`, the state with the choice made, the agent's turn passes with
nothing changed, or MAIN's or a callback's next command runs, or a callback ends, or a trigger comes, or the engine moves. -/
theorem step_cases {s t : State} (h : step s = .next t) :
    t = takeChoice s ∨
    (∃ c rest, (takeChoice s).env.main = c :: rest ∧ s.busy = false ∧ s.pend = false ∧
      runCommand c { takeChoice s with env := { (takeChoice s).env with main := rest } } = .next t) ∨
    (∃ c rest, (takeChoice s).env.callback = .command c :: rest ∧ s.busy = true ∧ s.wait = true ∧
      runCommand c { takeChoice s with env := { (takeChoice s).env with callback := rest } } = .next t) ∨
    (∃ rest, (takeChoice s).env.callback = .done :: rest ∧ s.busy = true ∧ s.wait = true ∧
      t = callbackDone { takeChoice s with env := { (takeChoice s).env with callback := rest } }) ∨
    t = trigStep (takeChoice s) ∨
    (s.busy = true ∧ s.wait = false ∧ t = dstep (takeChoice s)) ∨
    (s.busy = false ∧ s.pend = true ∧ t = deferStep (takeChoice s)) := by
  unfold step at h
  have inj : ∀ {a b : State}, (Host.Outcome.next a : Host.Outcome State Fault Refusal) = .next b → b = a :=
    fun e => by injection e with e; exact e.symm
  cases ha : chosenAgent s <;> rw [ha] at h <;> simp only [agentStep] at h
  · rcases mainStep_cases (takeChoice s) with e | ⟨c, rest, hm, hb, hp, e⟩ <;> rw [e] at h
    · exact .inl (inj h)
    · exact .inr (.inl ⟨c, rest, hm, by simpa using hb, by simpa using hp, h⟩)
  · exact .inr (.inr (.inr (.inr (.inl (inj h)))))
  · rcases callbackStep_cases (takeChoice s) with e | ⟨c, rest, hm, hb, hw, e⟩ | ⟨rest, hm, hb, hw, e⟩ <;> rw [e] at h
    · exact .inl (inj h)
    · exact .inr (.inr (.inl ⟨c, rest, hm, by simpa using hb, by simpa using hw, h⟩))
    · exact .inr (.inr (.inr (.inl ⟨rest, hm, by simpa using hb, by simpa using hw, inj h⟩)))
  · have h := inj h
    rcases engineStep_cases (takeChoice s) with ⟨hb, hw, e⟩ | ⟨hb, hp, e⟩ | ⟨-, e⟩ <;> rw [e] at h
    · exact .inr (.inr (.inr (.inr (.inr (.inl ⟨by simpa using hb, by simpa using hw, h⟩)))))
    · exact .inr (.inr (.inr (.inr (.inr (.inr ⟨by simpa using hb, by simpa using hp, h⟩)))))
    · exact .inl h

/-- A step whose turn is listed is that agent's step, with the turn taken. -/
theorem step_of_sched {s : State} {a : Agent} {turns : List Agent} (h : s.env.sched = a :: turns) :
    step s = agentStep a { s with env := { s.env with sched := turns } } := by
  simp [step, chosenAgent, takeChoice, h]

theorem run_zero (s : State) : Host.Core.run Sys2Proof.core 0 s = .next s := rfl

/-- A run goes on from the state its first step answers. -/
theorem run_succ_of_step {s t : State} (k : Nat) (h : step s = .next t) :
    Host.Core.run Sys2Proof.core (k + 1) s = Host.Core.run Sys2Proof.core k t := by
  have h' : Sys2Proof.core.step s = .next t := h
  simp only [Host.Core.run, h']

end Sys2Proof.Machine
end

