-- ==== Sys2Proof/Tests/Slice0.lean ====
section
/-! SUPPORT. Tests. Expected words and values are those of spec/95_test_vectors.md, whose vector each test names, or are written out
from the tables of 30_encoding.md. Then, for each statement with hypotheses, a state and operands that meet them. -/

namespace Sys2Proof.Tests

open Sys2Proof.Machine

/-! ### Well-formedness: the one ill-formed operand, and the values at the edge of the well-formed ones -/

theorem test_wellFormed_refuses_pm3 : wellFormed (.pinmode 5 .reserved) = false := by decide
theorem test_wellFormed_accepts_pin15 :
    wellFormed (.setdir 15 true true) = true ∧ wellFormed (.pinmode 15 .inputPullup) = true := by decide

/-! ### Decoding: words written out from R53 and R57 (OP, PIN, DATA) -/

/-- V2: 0001 0010 000000 1 1. -/
theorem test_decode_setdir : decode 0b0001001000000011#16 ⟨9⟩ = .ok (.setdir 2 true true) := by decide
/-- V2: word 0x1002, whose `out` is 0 and whose `apply` is 1. -/
theorem test_decode_setdir_apply_only : decode 0x1002#16 ⟨9⟩ = .ok (.setdir 0 false true) := by decide
/-- V3: 0010 0011 0000000 1. -/
theorem test_decode_setout : decode 0b0010001100000001#16 ⟨9⟩ = .ok (.setout 3 true) := by decide
/-- V4: 0011 0111 00000000. -/
theorem test_decode_getin : decode 0b0011011100000000#16 ⟨9⟩ = .ok (.getin 7) := by decide
/-- V5: 0100 0000 10100101. -/
theorem test_decode_applyall : decode 0b0100000010100101#16 ⟨9⟩ = .ok (.applyall 0xA5) := by decide
/-- V5: 0x5000 and 0x6000. -/
theorem test_decode_clear_set : decode 0x5000#16 ⟨9⟩ = .ok .clearall ∧ decode 0x6000#16 ⟨9⟩ = .ok .setall := by decide
/-- V6: 0111 0011 000000 10 with @a = 9 beside it. -/
theorem test_decode_attach : decode 0b0111001100000010#16 ⟨9⟩ = .ok (.attach 3 .rising ⟨9⟩) := by decide
/-- V6: 1000 0011 00000000. -/
theorem test_decode_detach : decode 0b1000001100000000#16 ⟨9⟩ = .ok (.detach 3) := by decide
/-- V7: 0x9000. -/
theorem test_decode_poll : decode 0x9000#16 ⟨9⟩ = .ok .poll := by decide
/-- V8: 1010 0000 0000000 1. -/
theorem test_decode_inten : decode 0b1010000000000001#16 ⟨9⟩ = .ok (.inten true) := by decide
/-- V8: 0xB000. -/
theorem test_decode_ignore : decode 0xB000#16 ⟨9⟩ = .ok .ignore := by decide
/-- V10: 1100 0101 000000 10. -/
theorem test_decode_pinmode : decode 0b1100010100000010#16 ⟨9⟩ = .ok (.pinmode 5 .inputPullup) := by decide
/-- V10: 1101 0010 00000000. -/
theorem test_decode_toggle : decode 0b1101001000000000#16 ⟨9⟩ = .ok (.toggle 2) := by decide
/-- V10: 1110 0111 00000000 and 0xF000. -/
theorem test_decode_dread_pread : decode 0xE700#16 ⟨9⟩ = .ok (.dread 7) ∧ decode 0xF000#16 ⟨9⟩ = .ok .pread := by decide
/-- V2 to V11: each reserved-zero field, OP = 0 and PM = 3. -/
theorem test_decode_refuses :
    ([0x0000#16, 0x0FFF#16, 0xFFFF#16, 0x4FFF#16, 0x1005#16, 0x2002#16, 0x2803#16, 0x3001#16, 0x41A5#16, 0x5001#16, 0x6100#16,
      0x7304#16, 0x8301#16, 0x9100#16, 0x9001#16, 0xA002#16, 0xA100#16, 0xB001#16, 0xC503#16, 0xC504#16, 0xD001#16, 0xE001#16,
      0xF100#16].all fun w => (decode w ⟨9⟩).toOption.isNone) = true := by decide
/-- R67: the words the assembler table gives. -/
theorem test_encode :
    encode (.setdir 2 true true) = 0x1203#16 ∧ encode (.setout 15 true) = 0x2F01#16 ∧ encode (.attach 3 .rising ⟨9⟩) = 0x7302#16 ∧
    encode (.pinmode 5 .inputPullup) = 0xC502#16 ∧ encode (.applyall 0xA5) = 0x40A5#16 ∧ encode (.inten false) = 0xA000#16 := by
  decide
/-- The table numbers bits of the one 16-bit word. -/
theorem test_decodeTableWord : decodeTableWord 16 0xE700 = some (.dread 7) ∧ decodeTableWord 16 0x0FFF = none := by decide

/-! ### One step -/

/-- A block with pin 7 bound to LOW and pin 0 to CHANGE, and the port's next answers given. -/
def block (dir intent cur : Byte) (port : List PortAnswer) : State where
  cur := cur
  prev := 0x55#8
  dir := dir
  intent := intent
  bind := #v[some ⟨.change, ⟨4⟩⟩, none, none, none, none, none, none, some ⟨.low, ⟨1⟩⟩]
  ign := false
  ten := true
  busy := false
  cursor := 0
  wait := false
  origin := .cmd
  pend := false
  env := { Env.empty with port := port }
  obs := []

/-- One answer of the port. -/
def answers (b : Byte) (st : PortStatus) : List PortAnswer := [⟨b, st⟩]

/-- A value of the next state. -/
def after {α : Type} (o : Host.Outcome State Fault Refusal) (f : State → α) : Option α :=
  match o with
  | .next t => some (f t)
  | .fault _ => none
  | .refused _ => none

/-- The newest response. -/
def lastResponse (s : State) : Option (Issuer × RespWord) :=
  match s.obs with
  | .response dest w :: _ => some (dest, w)
  | _ => none

/-- The bytes written to the port, newest first. -/
def written (s : State) : List Byte :=
  s.obs.filterMap fun o => match o with
    | .portWrite _ w _ => some w
    | _ => none

/-- V2: DIR = 0x04, INTENT = 0x00, CUR = 0xFF, SETDIR 2, 1, 1. -/
theorem test_setdir_applies : after (exec (.setdir 2 true true) (block 0x04 0x00 0xFF (answers 0 .success)))
    (fun t => (written t, lastResponse t, t.dir, t.cur)) = some ([0xFB], some (.main, 0x0FB), 0x04, 0xFB) := by decide
/-- V2: a failed write rolls DIR back. -/
theorem test_setdir_rolls_back : after (exec (.setdir 0 true true) (block 0x00 0x01 0x00 (answers 0 .addrNack)))
    (fun t => (written t, lastResponse t, t.dir, t.cur)) = some ([0x01], some (.main, 0x200), 0x00, 0x00) := by decide
/-- W1. -/
theorem test_setout_merges : after (exec (.setout 0 true) (block 0x01 0x00 0x02 (answers 0 .success)))
    (fun t => (written t, lastResponse t, t.intent, t.cur)) = some ([0x03], some (.main, 0x003), 0x01, 0x03) := by decide
/-- V3: on an INPUT pin INTENT changes and the port does not. -/
theorem test_setout_input_pin : after (exec (.setout 3 true) (block 0x00 0x00 0x10 (answers 0 .success)))
    (fun t => (written t, t.intent, t.cur)) = some ([0x10], 0x08, 0x10) := by decide
/-- V4. -/
theorem test_getin : after (exec (.getin 7) (block 0 0 0x80 [])) lastResponse = some (some (.main, 0x001)) ∧
    after (exec (.getin 0) (block 0 0 0x80 [])) lastResponse = some (some (.main, 0x000)) := by decide
/-- V5. -/
theorem test_applyall : after (exec (.applyall 0xA5) (block 0x0F 0 0 (answers 0 .success)))
    (fun t => (lastResponse t, t.intent, t.cur, t.dir)) = some (some (.main, 0x0A5), 0xA5, 0xA5, 0x0F) := by decide
/-- V5: a length error. -/
theorem test_applyall_fails : after (exec (.applyall 0xA5) (block 0x0F 0 0 (answers 0 .lengthError)))
    (fun t => (lastResponse t, t.intent, t.cur)) = some (some (.main, 0x100), 0, 0) := by decide
/-- V5. -/
theorem test_clearall : after (exec .clearall (block 0 0x3C 0xFF (answers 0 .success)))
    (fun t => (written t, t.intent, t.cur)) = some ([0x00], 0x00, 0x00) := by decide
/-- V5. -/
theorem test_setall : after (exec .setall (block 0 0 0 (answers 0 .success)))
    (fun t => (written t, lastResponse t, t.intent, t.cur)) = some ([0xFF], some (.main, 0x0FF), 0xFF, 0xFF) := by decide
/-- V6: ATTACH replaces a binding. -/
theorem test_attach : after (exec (.attach 7 .rising ⟨8⟩) (block 0 0 0 [])) (fun t => (binding t 7, binding t 0)) =
    some (some ⟨.rising, ⟨8⟩⟩, some ⟨.change, ⟨4⟩⟩) := by decide
/-- V6. -/
theorem test_detach : after (exec (.detach 7) (block 0 0 0 [])) (fun t => (binding t 7, binding t 0)) =
    some (none, some ⟨.change, ⟨4⟩⟩) := by decide
/-- V7: the shift of a poll's start; no response yet. -/
theorem test_poll_starts : after (exec .poll (block 0 0 0x11 (answers 0x5A .success)))
    (fun t => (t.prev, t.cur, t.busy, lastResponse t)) = some (0x11, 0x5A, true, none) := by decide
/-- V7: a POLL of a callback is deferred. -/
theorem test_poll_deferred : after (exec .poll { block 0 0 0 [] with busy := true, wait := true, cursor := 4 })
    (fun t => (t.pend, lastResponse t)) = some (true, some (.callback, 0x002)) := by decide
/-- V8: INTEN 0 from a callback leaves the pending poll. -/
theorem test_inten : after (exec (.inten false) { block 0 0 0 [] with busy := true, wait := true, cursor := 4, pend := true })
    (fun t => (t.ten, t.pend, lastResponse t)) = some (false, true, some (.callback, 0x000)) := by decide
/-- W5: IGNORE sets the flag and answers 0x000. -/
theorem test_ignore : after (exec .ignore (block 0 0 0 [])) (fun t => (t.ign, lastResponse t)) =
    some (true, some (.main, 0x000)) := by decide
/-- V10: OUTPUT, then INPUT_PULLUP. -/
theorem test_pinmode : after (exec (.pinmode 5 .output) (block 0 0 0 [])) (fun t => t.dir) = some 0x20 ∧
    after (exec (.pinmode 5 .inputPullup) (block 0x20 0 0 [])) (fun t => t.dir) = some 0x00 := by decide
/-- V10. -/
theorem test_toggle : after (exec (.toggle 0) (block 0x01 0x01 0x03 (answers 0 .success)))
    (fun t => (written t, lastResponse t, t.intent, t.cur)) = some ([0x02], some (.main, 0x002), 0x00, 0x02) := by decide
/-- V10: DREAD stores the whole byte and leaves PREV. -/
theorem test_dread : after (exec (.dread 7) (block 0 0 0 (answers 0x81 .success)))
    (fun t => (lastResponse t, t.cur, t.prev)) = some (some (.main, 0x001), 0x81, 0x55) := by decide
/-- V10. -/
theorem test_dread_fails : after (exec (.dread 1) (block 0 0 0 (answers 0x81 .addrNack)))
    (fun t => (lastResponse t, t.cur)) = some (some (.main, 0x200), 0x00) := by decide
/-- V10. -/
theorem test_pread : after (exec .pread (block 0 0 0 (answers 0x3C .success)))
    (fun t => (lastResponse t, t.cur, t.prev)) = some (some (.main, 0x03C), 0x3C, 0x55) := by decide
/-- V11: ILLEGAL wins over INVALID_PIN; 0x2801 decodes and then fails the range check. -/
theorem test_check_order : after (runCommand ⟨0x2803, ⟨9⟩⟩ (block 0 0 0 [])) lastResponse = some (some (.main, 0x600)) ∧
    after (runCommand ⟨0x2801, ⟨9⟩⟩ (block 0 0 0 [])) lastResponse = some (some (.main, 0x500)) := by decide

/-- V1: the rows of the table. -/
theorem test_merge : merge 0x00 0xFF 0x5A = 0x5A ∧ merge 0xFF 0x12 0x34 = 0x12 ∧ merge 0x0F 0xAB 0xCD = 0xCB ∧
    merge 0xF0 0x0F 0x0F = 0x0F ∧ merge 0x81 0x01 0x7E = 0x7F ∧ merge 0x55 0xAA 0xAA = 0xAA := by decide
/-- W3: the byte-wide instance. -/
theorem test_matchVec : matchVec .low 0xF0 0x3C = 0xC3 ∧ matchVec .change 0xF0 0x3C = 0xCC ∧
    matchVec .rising 0xF0 0x3C = 0x0C ∧ matchVec .falling 0xF0 0x3C = 0xC0 := by decide
/-- W7 and the truth table of R85: pin 0 CHANGE 1 to 0 and pin 7 LOW fire, in pin order. -/
theorem test_fireSet : fireSet (block 0 0 0x54 []) = [(0, ⟨4⟩), (7, ⟨1⟩)] ∧ fireSet (block 0 0 0xD5 []) = [] := by decide

/-- A poll in progress at CURSOR c, the engine's turn next. -/
def scanning (c : Fin 9) (o : Origin) : State :=
  { block 0 0 0x54 [] with
    busy := true, cursor := c, origin := o
    env := { Env.empty with sched := [.engine], callback := [.done] } }

/-- The same with a callback running. -/
def inCallback (acts : List CallbackAct) (turns : List Agent) : State :=
  { block 0 0 0x54 [] with
    busy := true, cursor := 8, wait := true
    env := { Env.empty with sched := turns, callback := acts } }

/-- R94: pin 7 is examined, fires, and CURSOR has passed it. -/
theorem test_dstep_fires : after (step (scanning 7 .cmd)) (fun t => (t.cursor, t.wait, fires t)) =
    some (8, true, [(7, ⟨1⟩)]) := by decide
/-- R94: the ninth DSTEP retires; ORIGIN decides whether MAIN is answered. -/
theorem test_dstep_retires : after (step (scanning 8 .cmd)) (fun t => (t.cursor, t.busy, lastResponse t)) =
      some (0, false, some (.main, 0x000)) ∧
    after (step (scanning 8 .auto)) (fun t => (t.busy, lastResponse t)) = some (false, none) := by decide
/-- V7: CB_DONE. -/
theorem test_callback_done : after (step (inCallback [.done] [.callback])) (fun t => (t.wait, t.cursor, t.obs)) =
    some (false, 8, []) := by decide
/-- V7: DEFER with IGN = 1 reads nothing. -/
theorem test_defer_ignored :
    after (step { block 0 0 0 [] with pend := true, ign := true, env := { Env.empty with sched := [.engine] } })
      (fun t => (t.pend, t.ign, t.busy, t.obs)) = some (false, false, false, []) := by decide
/-- V7: a trigger starts a poll of origin AUTO. -/
theorem test_trigger : after (step { block 0 0 0 [] with env := { Env.empty with sched := [.trig], port := answers 1 .success } })
    (fun t => (t.busy, t.origin, t.prev, t.cur)) = some (true, .auto, 0x00, 0x01) := by decide
/-- V7: a trigger while TEN = 0 is lost; while busy it is deferred. -/
theorem test_trigger_lost_or_deferred :
    after (step { block 0 0 0 [] with ten := false, env := { Env.empty with sched := [.trig] } })
      (fun t => (t.busy, t.pend, t.obs)) = some (false, false, []) ∧
    after (step { scanning 3 .cmd with env := { Env.empty with sched := [.trig] } }) (fun t => (t.pend, t.cursor)) =
      some (true, 3) := by decide
/-- R33: MAIN holds while a poll is pending, and its command stays its next one. -/
theorem test_main_holds :
    after (step { block 0 0 0 [] with pend := true, env := { Env.empty with sched := [.main], main := [⟨0xB000, ⟨9⟩⟩] } })
      (fun t => (t.env.main, t.ign)) = some ([⟨0xB000, ⟨9⟩⟩], false) := by decide
/-- Log 4: a word placed by `withFetchWord` is the first to run after reset. -/
theorem test_first_word_runs : after (step (State.reset.withFetchWord 16 0xA001)) (fun t => (t.ten, lastResponse t)) =
    some (true, some (.main, 0x000)) := by decide

/-! ### For each statement with hypotheses, a state and operands that meet them, clause by clause -/

/-- The answer of the port in a block that is given one. -/
theorem block_answer (d i c b : Byte) (st : PortStatus) : portAnswer (block d i c (answers b st)) = ⟨b, st⟩ := rfl

/-- The pins at the edge of the per-pin clauses: 7 names a pin, 8 and 15 do not. -/
theorem witness_pins : ((7 : BitVec 4).toNat = (7 : Pin).val) ∧ 8 ≤ (8 : BitVec 4).toNat ∧ 8 ≤ (15 : BitVec 4).toNat := by decide

theorem witness_DecodeOfEncodeIsTheCommand :
    wellFormed (.attach 15 .falling ⟨3⟩) = true ∧ wellFormed (.pinmode 8 .inputPullup) = true := by decide

theorem witness_EncodeOfDecodeIsTheWord : decode 0x7F03#16 ⟨5⟩ = .ok (.attach 15 .falling ⟨5⟩) := by decide

theorem witness_IllegalWordsAnswerIllegalAndOthersRun :
    illegalWord 0x0FFF#16 ∧ illegalWord 0x1004#16 ∧ illegalWord 0x2F02#16 ∧ illegalWord 0x3001#16 ∧ illegalWord 0x4100#16 ∧
    illegalWord 0x9001#16 ∧ illegalWord 0xA002#16 ∧ illegalWord 0xCF03#16 ∧
    ¬ illegalWord 0x1F03#16 ∧ ¬ illegalWord 0x40FF#16 ∧ ¬ illegalWord 0xA001#16 ∧ ¬ illegalWord 0xC802#16 := by
  simp [illegalWord]

/-- MAIN's turn with a legal word of pin 7 and with an illegal one, and the same for a running callback. -/
theorem witness_StepRunsTheDecodedCommand :
    decode 0xD700#16 ⟨9⟩ = .ok (.toggle 7) ∧ illegalWord 0x2803#16 ∧ ∀ w : Word,
    (∃ s : State, s.env.sched = .main :: [] ∧ s.env.main = ⟨w, ⟨9⟩⟩ :: [] ∧ s.busy = false ∧ s.pend = false) ∧
    (∃ s : State, s.env.sched = .callback :: [] ∧ s.env.callback = .command ⟨w, ⟨9⟩⟩ :: [.done] ∧ s.busy = true ∧ s.wait = true) :=
  ⟨by decide, by simp [illegalWord], fun w =>
    ⟨⟨{ block 0 0 0 [] with env := { Env.empty with sched := [.main], main := [⟨w, ⟨9⟩⟩] } }, rfl, rfl, rfl, rfl⟩,
      ⟨inCallback [.command ⟨w, ⟨9⟩⟩, .done] [.callback], rfl, rfl, rfl, rfl⟩⟩⟩

theorem witness_PresentedWordRunsNext : decodeTableWord 16 0xFFFF = none ∧ decodeTableWord 16 0xEF00 = some (.dread 15) ∧
    (State.reset.busy = false ∧ State.reset.pend = false) ∧
    ((inCallback [] []).busy = true ∧ (inCallback [] []).wait = true) := by decide

theorem witness_AgentsHoldWhileNothingIsEnabled :
    (∃ s : State, s.env.sched = .main :: [] ∧ s.busy = true) ∧ (∃ s : State, s.env.sched = .main :: [] ∧ s.pend = true) ∧
    (∃ s : State, s.env.sched = .callback :: [] ∧ s.busy = false) ∧
    (∃ s : State, s.env.sched = .callback :: [] ∧ s.wait = false) ∧
    (∃ s : State, s.env.sched = .engine :: [] ∧ s.busy = true ∧ s.wait = true) ∧
    (∃ s : State, s.env.sched = .engine :: [] ∧ s.busy = false ∧ s.pend = false) :=
  ⟨⟨inCallback [] [.main], rfl, rfl⟩,
    ⟨{ block 0 0 0 [] with pend := true, env := { Env.empty with sched := [.main] } }, rfl, rfl⟩,
    ⟨{ block 0 0 0 [] with env := { Env.empty with sched := [.callback] } }, rfl, rfl⟩,
    ⟨{ scanning 3 .cmd with env := { Env.empty with sched := [.callback] } }, rfl, rfl⟩,
    ⟨inCallback [] [.engine], rfl, rfl, rfl⟩,
    ⟨{ block 0 0 0 [] with env := { Env.empty with sched := [.engine] } }, rfl, rfl, rfl⟩⟩

theorem witness_PortAnswersAreTheEnvironments :
    (block 0 0 0 (answers 7 .busError)).env.port = ⟨7, .busError⟩ :: [] ∧ (block 0 0 0 []).env.port = [] := by decide

theorem witness_MergeLaws : getBit 0x7F#8 7 = false := by decide

theorem witness_FireSetIsTheMatchingPinsInOrder : (7, ⟨1⟩) ∈ fireSet (block 0 0 0x54 []) := by decide

/-- LOW on pin 7, and CHANGE on pin 0, steady at 1 beside pin 7, which has moved. -/
theorem witness_LowIsLevelTriggeredAndTheOthersAreNot :
    binding (block 0 0 0xD5 []) 7 = some ⟨.low, ⟨1⟩⟩ ∧ binding (block 0 0 0xD5 []) 0 = some ⟨.change, ⟨4⟩⟩ ∧
    IntMode.change ≠ IntMode.low ∧ getBit (block 0 0 0xD5 []).prev 0 = getBit (block 0 0 0xD5 []).cur 0 ∧
    getBit (block 0 0 0xD5 []).prev 7 ≠ getBit (block 0 0 0xD5 []).cur 7 := by decide

theorem witness_GetinAnswersTheShadowBit : (0 : BitVec 4).toNat = (0 : Pin).val ∧ (7 : BitVec 4).toNat = (7 : Pin).val ∧
    8 ≤ (8 : BitVec 4).toNat := by decide

theorem witness_AttachAndDetachWriteOneBinding : (7 : BitVec 4).toNat = (7 : Pin).val ∧ 8 ≤ (8 : BitVec 4).toNat := by decide

/-- The clauses of SETDIR, SETOUT, GETIN, TOGGLE, the bulk writes and the fresh reads: pins 7 and 8 (`witness_pins`), a success and
each failure of the one transaction. -/
theorem witness_port_clauses : ∀ st : PortStatus, ∃ s : State, portAnswer s = ⟨0xFF, st⟩ ∧ (portAnswer s).status = st :=
  fun st => ⟨block 0 0 0 (answers 0xFF st), rfl, rfl⟩

theorem witness_SetdirSetsOneDirectionBit : ∃ (s : State) (p : Pin) (d w : Byte), (7 : BitVec 4).toNat = p.val ∧
    d = putBit s.dir p true ∧ w = merge d s.intent s.cur ∧ (portAnswer s).status = .busError ∧ PortStatus.busError ≠ .success :=
  ⟨block 0 0xFF 0 (answers 0 .busError), 7, 0x80, 0x80, by decide⟩

theorem witness_SetoutWritesTheMergedByte : ∃ (s : State) (p : Pin) (x w : Byte), (7 : BitVec 4).toNat = p.val ∧
    x = putBit s.intent p true ∧ w = merge s.dir x s.cur ∧ (portAnswer s).status = .success :=
  ⟨block 0xFF 0 0 (answers 0 .success), 7, 0x80, 0x80, by decide⟩

theorem witness_BulkWritesWriteTheLiteralByte : ∃ (i : Instr) (w : Byte) (s : State),
    (i = .applyall w ∨ (i = .clearall ∧ w = 0x00#8) ∨ (i = .setall ∧ w = 0xFF#8)) ∧ (portAnswer s).status = .success :=
  ⟨.setall, 0xFF, block 0 0 0 (answers 0 .success), by decide⟩

theorem witness_PollStartsOrDefersOrIgnores :
    (inCallback [] []).busy = true ∧ (block 0 0 0 []).busy = false ∧ { block 0 0 0 [] with ign := true }.ign = true ∧
    (block 0 0 0 []).ign = false ∧ portAnswer (block 0 0 0 (answers 0 .success)) = ⟨0, .success⟩ ∧
    portAnswer (block 0 0 0 (answers 0 .dataNack)) = ⟨0, .dataNack⟩ := by decide

theorem witness_PinmodeRecordsTheDirection : PinMode.input ≠ .reserved ∧ PinMode.output ≠ .reserved ∧
    PinMode.inputPullup ≠ .reserved := by decide

theorem witness_ToggleInvertsTheIntentBit : ∃ (s : State) (p : Pin) (x w : Byte), (7 : BitVec 4).toNat = p.val ∧
    x = putBit s.intent p (!getBit s.intent p) ∧ w = merge s.dir x s.cur ∧ (portAnswer s).status = .success :=
  ⟨block 0xFF 0xFF 0 (answers 0 .success), 7, 0x7F, 0x7F, by decide⟩

theorem witness_FreshReadsSetCurOnly : ∃ (s : State) (b : Byte), portAnswer s = ⟨b, .lengthError⟩ ∧
    ((Instr.dread 7 = .dread 7 ∧ (7 : BitVec 4).toNat < 8) ∨ Instr.dread 7 = .pread) ∧ PortStatus.lengthError ≠ .success :=
  ⟨block 0 0 0 (answers 0x80 .lengthError), 0x80, by decide⟩

theorem witness_SetoutLeavesOtherLanes : ∃ (p : Pin) (s : State), (7 : BitVec 4).toNat = p.val ∧
    (portAnswer s).status = .success := ⟨7, block 0x0F 0 0 (answers 0 .success), by decide⟩

theorem witness_SetoutThenGetinLoopsBack : ∃ (p : Pin) (s : State), (7 : BitVec 4).toNat = p.val ∧ getBit s.dir p = true ∧
    (portAnswer s).status = .success := ⟨7, block 0x80 0 0 (answers 0 .success), by decide⟩

theorem witness_TwoTogglesRestoreIntent : ∃ s t : State, (7 : BitVec 4).toNat < 8 ∧ (portAnswer s).status = .success ∧
    exec (.toggle 7) s = .next t ∧ (portAnswer t).status = .success :=
  ⟨block 0 0 0 [⟨0, .success⟩, ⟨0, .success⟩], _, by decide, rfl, rfl, rfl⟩

theorem witness_EveryPortWriteUpdatesCur : ∀ st : PortStatus, ∃ (s t : State) (resp : Obs) (addr : Nat) (w : Byte),
    exec .setall s = .next t ∧ t.obs = resp :: .portWrite addr w st :: s.obs := by
  intro st
  refine ⟨block 0 0 0 (answers 0 st), ?_⟩
  cases st <;> exact ⟨_, _, _, _, rfl, rfl⟩

theorem witness_BulkWriteFixesTheMerge : ∃ (i : Instr) (w : Byte) (s : State),
    (i = .applyall w ∨ (i = .clearall ∧ w = 0x00#8) ∨ (i = .setall ∧ w = 0xFF#8)) ∧ (portAnswer s).status = .success :=
  ⟨.clearall, 0, block 0x0F 0xFF 0xFF (answers 0 .success), by decide⟩

theorem witness_IntentOfInputPinsIsNotWritten : ∃ (s t u : State) (x : Byte),
    (∀ q : Pin, getBit s.dir q = true → getBit x q = getBit s.intent q) ∧ x ≠ s.intent ∧
    exec (.toggle 7) s = .next t ∧ exec (.toggle 7) { s with intent := x } = .next u :=
  ⟨block 0x80 0x80 0 (answers 0 .success), _, _, 0xFF, by decide, by decide, rfl, rfl⟩

theorem witness_CommandsDoNotRevealPrev : ∃ t, exec .poll (block 0 0 0 (answers 1 .success)) = .next t := ⟨_, rfl⟩

theorem witness_InvalidPinFailsFast : wellFormed (.detach 8) = true ∧ perPinOperand (.detach 8) = some 8 ∧
    8 ≤ (8 : BitVec 4).toNat := by decide

theorem witness_FailedTransactionCommitsNothing : ∃ s t : State, exec (.setdir 7 true true) s = .next t ∧
    portCount t ≠ portCount s ∧ (portAnswer s).status = .addrNack ∧ PortStatus.addrNack ≠ .success :=
  ⟨block 0 0 0 (answers 0 .addrNack), _, rfl, by decide, by decide, by decide⟩

theorem witness_EveryErrorIsPrecise : ∃ (s t : State) (dest : Issuer) (w : RespWord) (rest : List Obs),
    runCommand ⟨0x2F01, ⟨9⟩⟩ s = .next t ∧ t.obs = .response dest w :: rest ∧ respCode w ≠ 0#3 :=
  ⟨block 0 0 0 [], _, _, _, _, rfl, rfl, by decide⟩

theorem witness_TransactionsFollowTheTable : (∃ t, exec (.dread 7) (block 0 0 0 []) = .next t) ∧ illegalWord 0x0000#16 ∧
    (∃ t, runCommand ⟨0x0000, ⟨9⟩⟩ (block 0 0 0 []) = .next t) :=
  ⟨⟨_, rfl⟩, by simp only [illegalWord]; decide, ⟨_, rfl⟩⟩

theorem witness_OnlyTheTabledCommandsWriteEachItem : ∃ t, exec .poll { block 0 0 0 [] with ign := true } = .next t ∧
    t.ign ≠ { block 0 0 0 [] with ign := true }.ign := ⟨_, rfl, by decide⟩

theorem witness_DstepExaminesOnePinOrRetires :
    (∀ c o, (scanning c o).env.sched = .engine :: [] ∧ (scanning c o).busy = true ∧ (scanning c o).wait = false) ∧
    (scanning 8 .cmd).cursor = 8 ∧ (scanning 8 .auto).origin = .auto ∧
    (scanning 7 .cmd).cursor = (7 : Pin).castSucc ∧ binding (scanning 7 .cmd) 7 = some ⟨.low, ⟨1⟩⟩ ∧
    edgeMatch .low (getBit (scanning 7 .cmd).prev 7) (getBit (scanning 7 .cmd).cur 7) = true ∧
    (scanning 1 .cmd).cursor = (1 : Pin).castSucc ∧ binding (scanning 1 .cmd) 1 = none :=
  ⟨fun _ _ => ⟨rfl, rfl, rfl⟩, by decide⟩

theorem witness_CallbackDoneClearsWaitOnly : (inCallback [.done] [.callback]).env.sched = .callback :: [] ∧
    (inCallback [.done] [.callback]).env.callback = .done :: [] ∧ (inCallback [.done] [.callback]).busy = true ∧
    (inCallback [.done] [.callback]).wait = true := by decide

theorem witness_DeferStartsThePendingPoll : ∀ (g : Bool) (st : PortStatus), ∃ s : State, s.env.sched = .engine :: [] ∧
    s.busy = false ∧ s.pend = true ∧ s.ign = g ∧ s.env.port = [⟨0xFF, st⟩] :=
  fun g st => ⟨{ block 0 0 0 [] with
    pend := true, ign := g, env := { Env.empty with sched := [.engine], port := answers 0xFF st } }, rfl, rfl, rfl, rfl, rfl⟩

theorem witness_TriggerIsLostDeferredOrStartsAPoll : ∀ (e b p g : Bool) (st : PortStatus), ∃ s : State,
    s.env.sched = .trig :: [] ∧ s.ten = e ∧ s.busy = b ∧ s.pend = p ∧ s.ign = g ∧ s.env.port = [⟨0xFF, st⟩] :=
  fun e b p g st => ⟨{ block 0 0 0 [] with
    ten := e, busy := b, pend := p, ign := g, env := { Env.empty with sched := [.trig], port := answers 0xFF st } },
    rfl, rfl, rfl, rfl, rfl, rfl⟩

theorem witness_TriggersCoalesceIntoOnePendingPoll : ∃ s : State, s.env.sched = List.replicate (2 + 1) .trig ++ [.engine] ∧
    s.ten = true ∧ (s.busy = true ∨ s.pend = true) :=
  ⟨inCallback [] [.trig, .trig, .trig, .engine], rfl, rfl, .inl rfl⟩

theorem witness_IgnoreSkipsTheNextPoll : (block 0 0 0 []).busy = false := by decide

/-- PREAD, and DREAD of pin 7; two answers that agree on pin 7 and differ on pin 0. -/
theorem witness_FreshReadBecomesTheNextPrev : (Instr.dread 7 = .dread 7 ∧ (7 : BitVec 4).toNat < 8) ∧
    getBit 0x00#8 7 = getBit 0x01#8 7 ∧ getBit 0x00#8 0 ≠ getBit 0x01#8 0 ∧
    ∃ s : State, s.busy = false ∧ s.ign = false ∧ s.env.port = ⟨0x00, .success⟩ :: ⟨0x01, .success⟩ :: [] :=
  ⟨by decide, by decide, by decide, block 0 0 0 [⟨0, .success⟩, ⟨1, .success⟩], rfl, rfl, rfl⟩

/-- For the statements about one step from a state that R29 holds of. -/
theorem witness_StepKeepsTheEngineConsistent : ∃ s t : State, engineConsistent s ∧ s.wait = true ∧ step s = .next t :=
  ⟨inCallback [.done] [.callback], _, by unfold engineConsistent; decide, rfl, rfl⟩

theorem witness_StepKeepsObservationsLegal : ∃ s t : State, obsLegal s ∧ s.obs ≠ [] ∧ step s = .next t := by
  refine ⟨answered .main 0x500#11 (scanning 8 .cmd), _, ?_, by decide, rfl⟩
  intro o h
  cases h with
  | head => unfold legalObs; decide
  | tail _ h => cases h

/-- A retiring DSTEP that answers MAIN. -/
theorem witness_MainGetsExactlyOneResponseACommand :
    ∃ t, step (scanning 8 .cmd) = .next t ∧ responseCount .main t = 1 ∧ owedToMain t = 0 := ⟨_, rfl, by decide, by decide⟩

/-- The start of a poll. -/
theorem witness_PrevIsNeverOverwrittenMidCycle : ∃ t,
    step { block 0 0 0x12 [] with env := { Env.empty with sched := [.trig], port := answers 1 .success } } = .next t ∧
    t.prev = 0x12#8 := ⟨_, rfl, by decide⟩

/-- A DSTEP that fires pin 7. -/
theorem witness_FireIsAtTheCursorWhichAdvances : ∃ t, step (scanning 7 .cmd) = .next t ∧ fires t = [(7, ⟨1⟩)] ∧
    (scanning 7 .cmd).busy = true ∧ t.busy = true := ⟨_, rfl, by decide, by decide, by decide⟩

/-- A DSTEP that passes pin 1, whose binding is absent. -/
theorem witness_AbsentBindingNeverFires : ∃ t, binding (scanning 1 .cmd) 1 = none ∧ step (scanning 1 .cmd) = .next t ∧
    t.cursor = 2 := ⟨_, by decide, rfl, by decide⟩

theorem witness_CallbackGetsExactlyOneResponseACommand :
    ∃ t, step (inCallback [.command ⟨0xB000, ⟨9⟩⟩] [.callback]) = .next t ∧ responseCount .callback t = 1 ∧
      callbackCommandsLeft t = 0 := ⟨_, rfl, by decide, by decide⟩

/-- Both outcomes: a poll that goes on, and one that retires with its whole FireSet fired. -/
theorem witness_EveryInterleavingFiresTheFireSet :
    (∃ t, duringPoll (block 0 0 0x54 []) (scanning 0 .cmd) ∧ step (scanning 0 .cmd) = .next t) ∧
    (∃ s t : State, duringPoll (block 0 0 0x54 []) s ∧ s.cursor = 8 ∧ s.wait = false ∧ step s = .next t ∧ t.busy = false) := by
  refine ⟨⟨_, ?_, rfl⟩, ⟨{ scanning 8 .cmd with obs := [.fire 7 ⟨1⟩, .fire 0 ⟨4⟩] }, _, ?_, rfl, rfl, rfl, rfl⟩⟩ <;>
    unfold duringPoll <;> decide

theorem witness_PollRunsToItsRetirement : ∃ (s : State) (hits : List (Pin × Callback)), idle s ∧ s.ign = false ∧
    hits = fireSet { s with prev := s.cur, cur := 0x00#8 } ∧ hits.length = 2 ∧ s.env.sched = pollTurns ++ [.trig] ∧
    s.env.main = ⟨0x9000#16, ⟨9⟩⟩ :: [] ∧ s.env.callback = List.replicate hits.length .done ++ [] ∧
    s.env.port = ⟨0x00, .success⟩ :: [] :=
  ⟨{ block 0 0 0xFF [] with env :=
    { main := [⟨0x9000, ⟨9⟩⟩], callback := [.done, .done], port := answers 0 .success, sched := pollTurns ++ [.trig], draws := 0 } },
    [(0, ⟨4⟩), (7, ⟨1⟩)], ⟨rfl, rfl, rfl, rfl, rfl⟩, by decide, by decide, by decide, by decide, by decide, by decide, by decide⟩

theorem witness_CallbackThatNeverEndsHangsTheBlock : ∃ s : State, s.busy = true ∧ s.wait = true ∧
    (∀ a ∈ s.env.callback, isCommand a = true) ∧ s.env.callback ≠ [] :=
  ⟨inCallback [.command ⟨0xB000, ⟨9⟩⟩] [], rfl, rfl, by decide, by decide⟩

end Sys2Proof.Tests
end

/-! ## Family 00_scope.md: one bit of a register, the port's answers, and the responses owed to MAIN -/

namespace Sys2Proof.Machine

/-! ### One bit of a byte (R14) -/

@[simp] theorem getBit_and (a b : Byte) (q : Pin) : getBit (a &&& b) q = (getBit a q && getBit b q) := by
  simp [getBit]

@[simp] theorem getBit_or (a b : Byte) (q : Pin) : getBit (a ||| b) q = (getBit a q || getBit b q) := by
  simp [getBit]

@[simp] theorem getBit_not (a : Byte) (q : Pin) : getBit (~~~ a) q = !getBit a q := by
  simp [getBit, q.isLt]

@[simp] theorem getBit_zero (q : Pin) : getBit 0x00#8 q = false := by simp [getBit]

/-- Among the eight lanes, only lane p of bit(p) is 1. -/
@[simp] theorem getBit_bit (p q : Pin) : getBit (bit p) q = decide (q = p) := by
  revert p q; decide

@[simp] theorem getBit_putBit (m : Byte) (p q : Pin) (v : Bool) :
    getBit (putBit m p v) q = if q = p then v else getBit m q := by
  unfold putBit
  by_cases hq : q = p
  · cases v <;> simp [hq]
  · cases v <;> simp [hq]

/-- Settles O13: each operator of the one-bit update acts lane by lane, and bit(p) is 1 on lane p alone. -/
theorem putBitChangesOneBit : Obligations.PutBitChangesOneBit := getBit_putBit

/-! ### The port's answers (R12; log 1) -/

section PortAnswers

variable {s : State}

theorem portAnswer_of_listed {a : PortAnswer} {rest : List PortAnswer} (h : s.env.port = a :: rest) :
    portAnswer s = a := by simp [portAnswer, h]

theorem takeAnswer_of_listed {a : PortAnswer} {rest : List PortAnswer} (h : s.env.port = a :: rest) :
    takeAnswer s = { s with env := { s.env with port := rest } } := by simp [takeAnswer, h]

theorem portAnswer_of_unlisted (h : s.env.port = []) :
    portAnswer s = ⟨Config.portByte s.env.draws, Config.portStatus s.env.draws⟩ := by simp [portAnswer, h]

theorem takeAnswer_of_unlisted (h : s.env.port = []) :
    takeAnswer s = { s with env := { s.env with draws := s.env.draws + 1 } } := by simp [takeAnswer, h]

end PortAnswers

/-- Settles O9, by the two cases of the environment's list of answers. -/
theorem portAnswersAreTheEnvironments : Obligations.PortAnswersAreTheEnvironments := fun _ =>
  ⟨fun _ _ h => ⟨portAnswer_of_listed h, takeAnswer_of_listed h⟩,
    fun h => ⟨portAnswer_of_unlisted h, takeAnswer_of_unlisted h⟩⟩

/-! ### What the counts of commands and responses read -/

/-- Going from `s` to `u` issues no command, gives no response, and starts or ends no poll. -/
structure KeepsAccounts (s u : State) : Prop where
  busy : u.busy = s.busy
  origin : u.origin = s.origin
  main : u.env.main = s.env.main
  callback : u.env.callback = s.env.callback
  responses : ∀ a, responseCount a u = responseCount a s

theorem keepsAccounts_of_obs {s u : State} (hb : u.busy = s.busy) (ho : u.origin = s.origin)
    (he : u.env = s.env) (hobs : u.obs = s.obs) : KeepsAccounts s u :=
  ⟨hb, ho, by rw [he], by rw [he], fun a => responseCount_of_obs a hobs⟩

theorem keepsAccounts_refl (s : State) : KeepsAccounts s s := keepsAccounts_of_obs rfl rfl rfl rfl

theorem keepsAccounts_trans {s u v : State} (h : KeepsAccounts s u) (k : KeepsAccounts u v) : KeepsAccounts s v :=
  ⟨k.busy.trans h.busy, k.origin.trans h.origin, k.main.trans h.main, k.callback.trans h.callback,
    fun a => (k.responses a).trans (h.responses a)⟩

theorem keepsAccounts_portRead (s : State) : KeepsAccounts s (portRead s) :=
  ⟨by simp, by simp, by simp, by simp, by simp⟩

theorem keepsAccounts_portWrite (w : Byte) (s : State) : KeepsAccounts s (portWrite w s) :=
  ⟨by simp, by simp, by simp, by simp, by simp⟩

theorem keepsAccounts_takeChoice (s : State) : KeepsAccounts s (takeChoice s) :=
  ⟨by simp, by simp, by simp, by simp, fun a => responseCount_of_obs a (by simp)⟩

theorem keepsAccounts_enterHandler (p : Pin) (h : Callback) (s : State) : KeepsAccounts s (enterHandler p h s) :=
  ⟨rfl, rfl, rfl, rfl, fun a => by simp [responseCount, isResponseTo]⟩

theorem keepsAccounts_examine (p : Pin) (s : State) : KeepsAccounts s (examine p s) := by
  have hcursor : KeepsAccounts s { s with cursor := p.succ } := keepsAccounts_of_obs rfl rfl rfl rfl
  rcases examine_cases p s with ⟨b, -, -, e⟩ | ⟨-, e⟩ <;> rw [e]
  · exact keepsAccounts_trans hcursor (keepsAccounts_enterHandler _ _ _)
  · exact hcursor

/-! ### Every command but MAIN's POLL is answered once, in its own step -/

theorem writeShadow_answers (w d x : Byte) (s : State) :
    ∃ r u, writeShadow w d x s = answered (issuer s) r u ∧ KeepsAccounts s u := by
  rcases writeShadow_cases w d x s with ⟨-, e⟩ | ⟨-, e⟩
  · exact ⟨_, _, e, keepsAccounts_trans (keepsAccounts_portWrite w s) (keepsAccounts_of_obs rfl rfl rfl rfl)⟩
  · exact ⟨_, _, e, keepsAccounts_portWrite w s⟩

theorem freshRead_answers (data : Byte → Byte) (s : State) :
    ∃ r u, freshRead data s = answered (issuer s) r u ∧ KeepsAccounts s u := by
  rcases freshRead_cases data s with ⟨-, e⟩ | ⟨-, e⟩
  · exact ⟨_, _, e, keepsAccounts_trans (keepsAccounts_portRead s) (keepsAccounts_of_obs rfl rfl rfl rfl)⟩
  · exact ⟨_, _, e, keepsAccounts_portRead s⟩

/-- R33, R34: a command answers its issuer once and leaves the accounts otherwise alone, or is a POLL of MAIN, which starts a poll. -/
theorem exec_answers {i : Instr} {s t : State} (h : exec i s = .next t) :
    (∃ r u, t = answered (issuer s) r u ∧ KeepsAccounts s u) ∨
    (i = .poll ∧ s.busy = false ∧ t = pollStart .cmd s) := by
  rcases exec_cases h with ⟨_, _, _, rfl⟩ | ⟨_, _, rfl⟩ | ⟨_, _, _, rfl⟩ | ⟨_, _, rfl⟩ | ⟨_, _, _, rfl⟩ |
    ⟨_, _, rfl⟩ | ⟨_, rfl⟩ | ⟨w, d, x, _, rfl⟩ | ⟨data, _, rfl⟩ | hpoll | ⟨_, _, rfl⟩
  -- The commands without a transaction: answered on the spot, with at most a register of the block written.
  any_goals exact .inl ⟨_, _, rfl, keepsAccounts_of_obs rfl rfl rfl rfl⟩
  · exact .inl (writeShadow_answers w d x s)
  · exact .inl (freshRead_answers data s)
  · exact .inr hpoll

theorem runCommand_answers {c : Command} {s t : State} (h : runCommand c s = .next t) :
    (∃ r u, t = answered (issuer s) r u ∧ KeepsAccounts s u) ∨ (s.busy = false ∧ t = pollStart .cmd s) := by
  rcases runCommand_cases h with ⟨i, -, hi⟩ | ⟨-, rfl⟩
  · exact (exec_answers hi).imp_right fun ⟨_, hb, ht⟩ => ⟨hb, ht⟩
  · exact .inl ⟨_, _, rfl, keepsAccounts_refl s⟩

/-! ### MAIN's account: responses had, response owed, commands left -/

/-- The sum that O53 says every step keeps. -/
def mainAccount (s : State) : Nat := responseCount .main s + owedToMain s + mainCommandsLeft s

theorem mainAccount_of_keepsAccounts {s u : State} (h : KeepsAccounts s u) : mainAccount u = mainAccount s := by
  simp only [mainAccount, owedToMain, mainCommandsLeft, h.busy, h.origin, h.main, h.responses]

theorem mainAccount_answered (a : Issuer) (w : RespWord) (s : State) :
    mainAccount (answered a w s) = mainAccount s + if a = .main then 1 else 0 := by
  have howed : owedToMain (answered a w s) = owedToMain s := rfl
  have hleft : mainCommandsLeft (answered a w s) = mainCommandsLeft s := rfl
  rw [mainAccount, mainAccount, howed, hleft, responseCount_answered]
  omega

theorem mainAccount_pollRespond (o : Origin) (c : Code) (d : Byte) (s : State) :
    mainAccount (pollRespond o c d s) = mainAccount s + if o = .cmd then 1 else 0 := by
  cases o with
  | cmd => exact mainAccount_answered .main _ s
  | auto => rfl

theorem owedToMain_of_not_busy {s : State} (h : s.busy = false) : owedToMain s = 0 := by simp [owedToMain, h]

theorem owedToMain_of_busy {s : State} (h : s.busy = true) : owedToMain s = if s.origin = .cmd then 1 else 0 := by
  simp [owedToMain, h]

/-- R91: a poll started from an idle engine for MAIN answers it at once or owes it the response; for nobody, neither. -/
theorem mainAccount_pollStart (o : Origin) {s : State} (hb : s.busy = false) :
    mainAccount (pollStart o s) = mainAccount s + if o = .cmd then 1 else 0 := by
  rcases pollStart_cases o s with ⟨-, e⟩ | ⟨-, -, e⟩ | ⟨-, -, e⟩ <;> rw [e]
  · have hign : mainAccount { s with ign := false } = mainAccount s := rfl
    rw [mainAccount_pollRespond, hign]
  · have hread := keepsAccounts_portRead s
    have hresp : responseCount .main { portRead s with
        prev := s.cur, cur := (portAnswer s).byte, busy := true, cursor := 0, wait := false, origin := o } =
        responseCount .main s := (responseCount_of_obs .main rfl).trans (hread.responses _)
    rw [mainAccount, mainAccount, owedToMain_of_busy rfl, owedToMain_of_not_busy hb, hresp]
    simp only [mainCommandsLeft, hread.main]
    omega
  · rw [mainAccount_pollRespond, mainAccount_of_keepsAccounts (keepsAccounts_portRead s)]

/-- R94, step (5): the retirement pays MAIN what the poll in progress owed it. -/
theorem mainAccount_retire {s : State} (hb : s.busy = true) : mainAccount (retire s) = mainAccount s := by
  have hidle : mainAccount { s with busy := false, cursor := 0, origin := .cmd } =
      responseCount .main s + mainCommandsLeft s := rfl
  rw [retire, mainAccount_pollRespond, hidle, mainAccount, owedToMain_of_busy hb]
  omega

theorem mainAccount_dstep {s : State} (hb : s.busy = true) : mainAccount (dstep s) = mainAccount s := by
  rcases dstep_cases s with ⟨p, -, e⟩ | ⟨-, e⟩ <;> rw [e]
  · exact mainAccount_of_keepsAccounts (keepsAccounts_examine p s)
  · exact mainAccount_retire hb

/-- A trigger owes nobody a response, whether it is lost, deferred, or starts a poll. -/
theorem mainAccount_trigStep (s : State) : mainAccount (trigStep s) = mainAccount s := by
  rcases trigStep_cases s with ⟨-, e⟩ | ⟨-, -, e⟩ | ⟨-, hb, -, e⟩ <;> rw [e]
  · exact mainAccount_of_keepsAccounts (keepsAccounts_of_obs rfl rfl rfl rfl)
  · exact mainAccount_pollStart .auto hb

theorem mainAccount_deferStep {s : State} (hb : s.busy = false) : mainAccount (deferStep s) = mainAccount s :=
  mainAccount_pollStart .auto (s := { s with pend := false }) hb

/-- An accepted command adds one response of MAIN's, given or owed, if MAIN issued it, and none otherwise. -/
theorem mainAccount_runCommand {c : Command} {s t : State} (h : runCommand c s = .next t) :
    mainAccount t = mainAccount s + if issuer s = .main then 1 else 0 := by
  rcases runCommand_answers h with ⟨r, u, rfl, hu⟩ | ⟨hb, rfl⟩
  · rw [mainAccount_answered, mainAccount_of_keepsAccounts hu]
  · rw [mainAccount_pollStart .cmd hb, issuer_of_not_busy hb, if_pos rfl, if_pos rfl]

theorem mainAccount_takeCommand {s : State} {c : Command} {rest : List Command} (h : s.env.main = c :: rest) :
    mainAccount { s with env := { s.env with main := rest } } + 1 = mainAccount s := by
  have hleft : mainCommandsLeft s = rest.length + 1 := by simp [mainCommandsLeft, h]
  rw [mainAccount.eq_def s, hleft]
  rfl

/-- Settles O53: case by case over what a step can do. A command leaves MAIN's list as its response is given or, for a POLL
whose read succeeds, becomes owed; the retirement turns the one owed into the one given; nothing else touches the account. -/
theorem mainGetsExactlyOneResponseACommand : Obligations.MainGetsExactlyOneResponseACommand := by
  intro s t h
  change mainAccount t = mainAccount s
  have hchoice : mainAccount (takeChoice s) = mainAccount s :=
    mainAccount_of_keepsAccounts (keepsAccounts_takeChoice s)
  rw [← hchoice]
  rcases step_cases h with rfl | ⟨c, rest, hm, hb, -, hrun⟩ | ⟨c, rest, -, hb, -, hrun⟩ | ⟨rest, -, -, -, rfl⟩ |
    rfl | ⟨hb, -, rfl⟩ | ⟨hb, -, rfl⟩
  · rfl
  · rw [mainAccount_runCommand hrun, issuer_of_not_busy (by simpa using hb), if_pos rfl, mainAccount_takeCommand hm]
  · rw [mainAccount_runCommand hrun, issuer_of_busy (by simpa using hb), if_neg (by decide)]
    rfl
  · rfl
  · exact mainAccount_trigStep _
  · exact mainAccount_dstep (by simpa using hb)
  · exact mainAccount_deferStep (by simpa using hb)

end Sys2Proof.Machine

/-! ## Family 10_state.md: reset, the bindings, who holds a turn, the engine's invariant, PREV, and what each item depends on -/

namespace Sys2Proof.Machine

/-! ### Reset and the binding table (R25, R32) -/

@[simp] theorem binding_setBinding (s : State) (p q : Pin) (b : Option Binding) :
    binding (setBinding p b s) q = if q = p then b else binding s q := by
  simp only [binding, setBinding_bind, Vector.getElem_set, Fin.ext_iff, eq_comm]

/-- Settles O14: the table is a vector, and entries of two pins are two places of it. -/
theorem setBindingChangesOneEntry : Obligations.SetBindingChangesOneEntry := binding_setBinding

@[simp] theorem binding_reset (p : Pin) : binding State.reset p = none := by
  simp [binding, State.reset]

theorem idle_reset : idle State.reset := ⟨rfl, rfl, rfl, rfl, rfl⟩

/-- Settles O10: each item is read off the reset state, and nothing has been seen. -/
theorem resetLeavesTheTabledValues : Obligations.ResetLeavesTheTabledValues :=
  ⟨rfl, rfl, rfl, rfl, binding_reset, rfl, rfl, idle_reset, rfl⟩

/-- R29, R125: an idle engine is consistent. -/
theorem engineConsistent_of_idle {s : State} (h : idle s) : engineConsistent s := by
  obtain ⟨-, hcursor, hwait, horigin, -⟩ := h
  exact ⟨fun _ => ⟨hcursor, hwait, horigin⟩, fun hw => by simp [hwait] at hw⟩

/-- Settles O51: reset leaves the engine idle and nothing seen. -/
theorem resetIsConsistentAndLegal : Obligations.ResetIsConsistentAndLegal :=
  ⟨engineConsistent_of_idle idle_reset, List.forall_mem_nil _⟩

/-! ### Accepted commands run and other turns pass (R33) -/

theorem mainStep_of_accepted {s : State} {c : Command} {cmds : List Command} (hm : s.env.main = c :: cmds)
    (hb : s.busy = false) (hp : s.pend = false) :
    mainStep s = runCommand c { s with env := { s.env with main := cmds } } := by
  simp [mainStep, mainAccepted, hm, hb, hp]

theorem callbackStep_of_running {s : State} {c : Command} {acts : List CallbackAct}
    (hc : s.env.callback = .command c :: acts) (hb : s.busy = true) (hw : s.wait = true) :
    callbackStep s = runCommand c { s with env := { s.env with callback := acts } } := by
  simp [callbackStep, callbackRunning, hc, hb, hw]

theorem mainStep_holds {s : State} (h : s.busy = true ∨ s.pend = true) : mainStep s = .next s := by
  rcases mainStep_cases s with e | ⟨_, _, _, hb, hp, _⟩
  · exact e
  · simp [hb, hp] at h

theorem callbackStep_holds {s : State} (h : s.busy = false ∨ s.wait = false) : callbackStep s = .next s := by
  rcases callbackStep_cases s with e | ⟨_, _, _, hb, hw, _⟩ | ⟨_, _, hb, hw, _⟩
  · exact e
  · simp [hb, hw] at h
  · simp [hb, hw] at h

theorem engineStep_holds {s : State} (h : (s.busy = true ∧ s.wait = true) ∨ (s.busy = false ∧ s.pend = false)) :
    engineStep s = s := by
  rcases engineStep_cases s with ⟨hb, hw, _⟩ | ⟨hb, hp, _⟩ | ⟨_, e⟩
  · simp [hb, hw] at h
  · simp [hb, hp] at h
  · exact e

/-- Settles O8, agent by agent: each one's step holds where the agent has no enabled step. -/
theorem agentsHoldWhileNothingIsEnabled : Obligations.AgentsHoldWhileNothingIsEnabled := by
  rintro s turns (⟨hs, hoff⟩ | ⟨hs, hoff⟩ | ⟨hs, hoff⟩) <;> rw [step_of_sched hs]
  · exact mainStep_holds hoff
  · exact callbackStep_holds hoff
  · exact congrArg Host.Outcome.next (engineStep_holds hoff)

/-! ### The decoder refuses exactly the words of R63 -/

theorem ifReservedZero_eq_error {clear : Bool} {i : Instr} :
    (∃ e, ifReservedZero clear i = .error e) ↔ clear = false := by
  cases clear <;> simp [ifReservedZero]

/-- The bits of a byte from bit k up are all 0 exactly if the byte is below 2 ^ k. -/
theorem extractLsb'_high_eq_zero (d : Byte) {k n : Nat} (hk : k + n = 8) :
    (d.extractLsb' k n == 0#n) = decide (d.toNat < 2 ^ k) := by
  have hd : d.toNat / 2 ^ k < 2 ^ n := by
    rw [Nat.div_lt_iff_lt_mul (by positivity), ← Nat.pow_add, Nat.add_comm, hk]
    exact d.isLt
  rw [Bool.eq_iff_iff, beq_iff_eq, decide_eq_true_iff, ← BitVec.toNat_inj, BitVec.extractLsb'_toNat,
    Nat.shiftRight_eq_div_pow, Nat.mod_eq_of_lt hd, BitVec.toNat_ofNat, Nat.zero_mod, Nat.div_eq_zero_iff]
  simp

theorem extractLsb'_low_eq_three (d : Byte) : (d.extractLsb' 0 2 == 3#2) = decide (d.toNat % 4 = 3) := by
  rw [Bool.eq_iff_iff, beq_iff_eq, decide_eq_true_iff, ← BitVec.toNat_inj, BitVec.extractLsb'_toNat]
  simp

/-- R63, R65: the decoder refuses the words of the three clauses and no others, opcode by opcode. -/
theorem decode_error_iff (w : Word) (h : Callback) : (∃ e, decode w h = .error e) ↔ illegalWord w := by
  unfold illegalWord decode
  dsimp only
  rw [← opField_toNat, ← pinField_toNat, ← dataField_toNat]
  generalize pinField w = pin
  generalize dataField w = d
  split
  case h_12 hop =>
    rw [extractLsb'_high_eq_zero d (by decide), extractLsb'_low_eq_three, hop]
    by_cases hhigh : d.toNat < 4 <;> by_cases hlow : d.toNat % 4 = 3 <;> simp [hhigh, hlow]
    omega
  case h_16 =>
    have hop : opField w = 0#4 := by
      generalize opField w = op at *
      revert op
      decide
    simp [hop]
  -- The other opcodes are legal, and what is left is their reserved-zero bits.
  all_goals
    rename_i hop
    rw [ifReservedZero_eq_error, hop]
    simp [extractLsb'_high_eq_zero, ← BitVec.toNat_inj] <;> omega

theorem runCommand_of_ok {w : Word} {h : Callback} {i : Instr} (hd : decode w h = .ok i) (s : State) :
    runCommand ⟨w, h⟩ s = exec i s := by
  simp only [runCommand, hd]

theorem runCommand_of_illegal {c : Command} (h : illegalWord c.word) (s : State) :
    runCommand c s = .next (answered (issuer s) 0x600#11 s) := by
  obtain ⟨e, he⟩ := (decode_error_iff c.word c.handle).2 h
  simp only [runCommand, he]
  rfl

/-! ### A step runs the command presented (R33, R47) -/

theorem step_of_mainAccepted {s : State} {c : Command} {cmds : List Command} {turns : List Agent}
    (hs : s.env.sched = .main :: turns) (hm : s.env.main = c :: cmds) (hb : s.busy = false) (hp : s.pend = false) :
    step s = runCommand c { s with env := { s.env with main := cmds, sched := turns } } :=
  (step_of_sched hs).trans (mainStep_of_accepted hm hb hp)

theorem step_of_callbackRunning {s : State} {c : Command} {acts : List CallbackAct} {turns : List Agent}
    (hs : s.env.sched = .callback :: turns) (hc : s.env.callback = .command c :: acts) (hb : s.busy = true)
    (hw : s.wait = true) :
    step s = runCommand c { s with env := { s.env with callback := acts, sched := turns } } :=
  (step_of_sched hs).trans (callbackStep_of_running hc hb hw)

/-- Settles O6: the turn is MAIN's or the callback's, its command is accepted, and its word decodes or is illegal. -/
theorem stepRunsTheDecodedCommand : Obligations.StepRunsTheDecodedCommand := by
  intro s u c turns hturn
  have hrun : step s = runCommand c u := by
    rcases hturn with ⟨cmds, hs, hm, hb, hp, rfl⟩ | ⟨acts, hs, hc, hb, hw, rfl⟩
    · exact step_of_mainAccepted hs hm hb hp
    · exact step_of_callbackRunning hs hc hb hw
  have hissuer : issuer u = issuer s := by
    rcases hturn with ⟨_, _, _, _, _, rfl⟩ | ⟨_, _, _, _, _, rfl⟩ <;> rfl
  refine ⟨hrun, fun i hi => hrun.trans (runCommand_of_ok hi u), fun hill => ?_⟩
  rw [hrun, runCommand_of_illegal hill, hissuer]

theorem step_presentNext {s : State} (c : Command)
    (h : (s.busy = false ∧ s.pend = false) ∨ (s.busy = true ∧ s.wait = true)) :
    step (presentNext c s) = runCommand c s := by
  rcases h with ⟨hb, hp⟩ | ⟨hb, hw⟩
  · have hidle : callbackRunning s = false := by simp [callbackRunning, hb]
    rw [presentNext, if_neg (by simp [hidle])]
    exact step_of_mainAccepted rfl rfl hb hp
  · have hrunning : callbackRunning s = true := by simp [callbackRunning, hb, hw]
    rw [presentNext, if_pos hrunning]
    exact step_of_callbackRunning rfl rfl hb hw

theorem decode_of_decodeTableWord {nbits w : Nat} {i : Instr} (h : decodeTableWord nbits w = some i) :
    decode (tableWord nbits w) tableHandle = .ok i := by
  unfold decodeTableWord at h
  cases hd : decode (tableWord nbits w) tableHandle with
  | error e => simp [hd, Except.toOption] at h
  | ok j => simpa [hd, Except.toOption] using h

/-- Settles O7: the command presented is the next accepted one, and presenting and taking it cancel out. -/
theorem presentedWordRunsNext : Obligations.PresentedWordRunsNext := by
  intro s nbits w i hdec haccepted
  rw [State.withFetchWord, step_presentNext _ haccepted]
  exact runCommand_of_ok (decode_of_decodeTableWord hdec) s

/-! ### What a step does to the poll in progress (R28, R91, R94, R97) -/

/-- Going from `s` to `t` leaves PREV and the engine's BUSY, CURSOR, WAIT and ORIGIN. -/
structure KeepsScan (s t : State) : Prop where
  prev : t.prev = s.prev
  busy : t.busy = s.busy
  cursor : t.cursor = s.cursor
  wait : t.wait = s.wait
  origin : t.origin = s.origin

/-- What one step can do to the poll in progress and to PREV. -/
inductive ScanMove (s t : State) : Prop where
  | kept (h : KeepsScan s t)
  /-- R91: the shift of a poll's start. -/
  | started (hs : s.busy = false) (prev : t.prev = s.cur) (busy : t.busy = true) (cursor : t.cursor = 0)
      (wait : t.wait = false)
  /-- R94, step (4), with or without a fire. -/
  | examined (p : Pin) (prev : t.prev = s.prev) (busy : t.busy = true) (cursor : t.cursor = p.succ)
  /-- R97: CB_DONE. -/
  | returned (prev : t.prev = s.prev) (busy : t.busy = true) (wait : t.wait = false)
  /-- R94, step (5). -/
  | retired (prev : t.prev = s.prev) (busy : t.busy = false) (cursor : t.cursor = 0) (wait : t.wait = false)
      (origin : t.origin = .cmd)

theorem keepsScan_of_arch {s t : State} (h : arch t = arch s) : KeepsScan s t :=
  ⟨congrArg Arch.prev h, congrArg Arch.busy h, congrArg Arch.cursor h, congrArg Arch.wait h, congrArg Arch.origin h⟩

/-- A move reads PREV, CUR and the engine's items only, so a change of other items may come before it. -/
theorem scanMove_of_keepsScan {s u t : State} (m : ScanMove u t) (k : KeepsScan s u) (cur : u.cur = s.cur) :
    ScanMove s t := by
  cases m with
  | kept l => exact .kept ⟨l.prev.trans k.prev, l.busy.trans k.busy, l.cursor.trans k.cursor, l.wait.trans k.wait,
      l.origin.trans k.origin⟩
  | started hs prev busy cursor wait => exact .started (k.busy ▸ hs) (prev.trans cur) busy cursor wait
  | examined p prev busy cursor => exact .examined p (prev.trans k.prev) busy cursor
  | returned prev busy wait => exact .returned (prev.trans k.prev) busy wait
  | retired prev busy cursor wait origin => exact .retired (prev.trans k.prev) busy cursor wait origin

theorem scanMove_of_arch {s u t : State} (m : ScanMove u t) (h : arch u = arch s) : ScanMove s t :=
  scanMove_of_keepsScan m (keepsScan_of_arch h) (congrArg Arch.cur h)

theorem pollStart_scanMove (o : Origin) {s : State} (hb : s.busy = false) : ScanMove s (pollStart o s) := by
  rcases pollStart_cases o s with ⟨-, e⟩ | ⟨-, -, e⟩ | ⟨-, -, e⟩ <;> rw [e]
  · exact .kept ⟨by simp, by simp, by simp, by simp, by simp⟩
  · exact .started hb rfl rfl rfl rfl
  · exact .kept (keepsScan_of_arch (by simp))

/-- R31: no command but a POLL of MAIN touches the poll in progress or PREV. -/
theorem exec_keepsScan {i : Instr} {s t : State} (h : exec i s = .next t) :
    KeepsScan s t ∨ (i = .poll ∧ s.busy = false ∧ t = pollStart .cmd s) := by
  rcases exec_cases h with ⟨_, _, _, rfl⟩ | ⟨_, _, rfl⟩ | ⟨_, _, _, rfl⟩ | ⟨_, _, rfl⟩ | ⟨_, _, _, rfl⟩ |
    ⟨_, _, rfl⟩ | ⟨_, rfl⟩ | ⟨w, d, x, _, rfl⟩ | ⟨data, _, rfl⟩ | hpoll | ⟨_, _, rfl⟩
  -- The commands without a transaction write no item of the engine but PEND.
  any_goals exact .inl ⟨rfl, rfl, rfl, rfl, rfl⟩
  · left
    rcases writeShadow_cases w d x s with ⟨-, e⟩ | ⟨-, e⟩ <;> rw [e] <;> constructor <;> simp
  · left
    rcases freshRead_cases data s with ⟨-, e⟩ | ⟨-, e⟩ <;> rw [e] <;> constructor <;> simp
  · exact .inr hpoll

theorem runCommand_scanMove {c : Command} {s t : State} (h : runCommand c s = .next t) : ScanMove s t := by
  rcases runCommand_cases h with ⟨i, -, hi⟩ | ⟨-, rfl⟩
  · rcases exec_keepsScan hi with hk | ⟨-, hb, rfl⟩
    · exact .kept hk
    · exact pollStart_scanMove .cmd hb
  · exact .kept ⟨rfl, rfl, rfl, rfl, rfl⟩

theorem trigStep_scanMove (s : State) : ScanMove s (trigStep s) := by
  rcases trigStep_cases s with ⟨-, e⟩ | ⟨-, -, e⟩ | ⟨-, hb, -, e⟩ <;> rw [e]
  · exact .kept ⟨rfl, rfl, rfl, rfl, rfl⟩
  · exact .kept ⟨rfl, rfl, rfl, rfl, rfl⟩
  · exact pollStart_scanMove .auto hb

theorem deferStep_scanMove {s : State} (hb : s.busy = false) : ScanMove s (deferStep s) :=
  scanMove_of_keepsScan (pollStart_scanMove .auto (s := { s with pend := false }) hb) ⟨rfl, rfl, rfl, rfl, rfl⟩ rfl

theorem dstep_scanMove {s : State} (hb : s.busy = true) (hw : s.wait = false) : ScanMove s (dstep s) := by
  rcases dstep_cases s with ⟨p, -, e⟩ | ⟨-, e⟩ <;> rw [e]
  · rcases examine_cases p s with ⟨b, -, -, e⟩ | ⟨-, e⟩ <;> rw [e]
    · exact .examined p rfl hb rfl
    · exact .examined p rfl hb rfl
  · exact .retired (by simp [retire]) (by simp [retire]) (by simp [retire]) (by simpa [retire] using hw)
      (by simp [retire])

theorem step_scanMove {s t : State} (h : step s = .next t) : ScanMove s t := by
  have hchoice : arch (takeChoice s) = arch s := arch_takeChoice s
  rcases step_cases h with rfl | ⟨c, rest, -, -, -, hrun⟩ | ⟨c, rest, -, -, -, hrun⟩ | ⟨rest, -, hb, -, rfl⟩ |
    rfl | ⟨hb, hw, rfl⟩ | ⟨hb, -, rfl⟩
  · exact .kept (keepsScan_of_arch hchoice)
  · exact scanMove_of_arch (runCommand_scanMove hrun) hchoice
  · exact scanMove_of_arch (runCommand_scanMove hrun) hchoice
  · exact .returned (takeChoice_prev s) ((takeChoice_busy s).trans hb) rfl
  · exact scanMove_of_arch (trigStep_scanMove _) hchoice
  · exact scanMove_of_arch (dstep_scanMove (by simpa using hb) (by simpa using hw)) hchoice
  · exact scanMove_of_arch (deferStep_scanMove (by simpa using hb)) hchoice

/-- Settles O50, by the moves a step can make: the only one that clears BUSY is the retirement, which leaves the other items clear
too, and the only one that can set WAIT examines a pin, so leaves BUSY = 1 and CURSOR past that pin. -/
theorem stepKeepsTheEngineConsistent : Obligations.StepKeepsTheEngineConsistent := by
  rintro s t ⟨hidle, hwaiting⟩ h
  cases step_scanMove h with
  | kept k => simpa only [engineConsistent, k.busy, k.cursor, k.wait, k.origin] using ⟨hidle, hwaiting⟩
  | started _ _ busy _ wait => exact ⟨by simp [busy], by simp [wait]⟩
  | examined p _ busy cursor => exact ⟨by simp [busy], fun _ => ⟨busy, by simp [cursor]⟩⟩
  | returned _ busy wait => exact ⟨by simp [busy], by simp [wait]⟩
  | retired _ _ cursor wait origin => exact ⟨fun _ => ⟨cursor, wait, origin⟩, by simp [wait]⟩

/-- Settles O55: of the moves a step can make, only a poll's start writes PREV. -/
theorem prevIsNeverOverwrittenMidCycle : Obligations.PrevIsNeverOverwrittenMidCycle := by
  intro s t h
  cases step_scanMove h with
  | kept k => exact .inl k.prev
  | started hs prev busy cursor _ => exact .inr ⟨hs, busy, cursor, prev⟩
  | examined _ prev _ _ => exact .inl prev
  | returned prev _ _ => exact .inl prev
  | retired prev _ _ _ _ => exact .inl prev

/-! ### Which commands write each item (R31) -/

/-- Settles O41, by what a command can do: each outcome writes the items of its own columns and keeps the rest. -/
theorem onlyTheTabledCommandsWriteEachItem : Obligations.OnlyTheTabledCommandsWriteEachItem := by
  intro i s t h
  rcases exec_cases h with ⟨_, _, _, rfl⟩ | ⟨_, _, rfl⟩ | ⟨_, _, _, rfl⟩ | ⟨d, hi, rfl⟩ | ⟨p, b, hi, rfl⟩ |
    ⟨en, rfl, rfl⟩ | ⟨rfl, rfl⟩ | ⟨w, d, x, hw, rfl⟩ | ⟨data, hi, rfl⟩ | ⟨rfl, -, rfl⟩ | ⟨rfl, -, rfl⟩
  -- INVALID_PIN, ILLEGAL and GETIN write nothing.
  · simp
  · simp
  · simp
  · rcases hi with ⟨pin, out, rfl⟩ | ⟨pin, pm, rfl⟩ <;> simp
  · rcases hi with ⟨pin, mode, k, rfl⟩ | ⟨pin, rfl⟩ <;> simp
  · simp
  · simp
  · rcases writeShadow_cases w d x s with ⟨-, e⟩ | ⟨-, e⟩ <;> rw [e]
    · rcases hw with ⟨pin, out, rfl, -, rfl⟩ | ⟨rfl, ⟨pin, ⟨v, rfl⟩ | rfl, -⟩ | ⟨v, rfl⟩ | rfl | rfl⟩ <;> simp
    · simp
  · rcases freshRead_cases data s with ⟨-, e⟩ | ⟨-, e⟩ <;> rw [e]
    · rcases hi with ⟨pin, rfl, -⟩ | rfl <;> simp
    · simp
  · rcases pollStart_cases .cmd s with ⟨-, e⟩ | ⟨-, -, e⟩ | ⟨-, -, e⟩ <;> rw [e] <;> simp
  · simp

/-! ### A callback's account: responses had and commands left (R33) -/

/-- The sum that O54 says every step keeps. -/
def callbackAccount (s : State) : Nat := responseCount .callback s + callbackCommandsLeft s

theorem callbackAccount_congr {s u : State} (hr : responseCount .callback u = responseCount .callback s)
    (hc : u.env.callback = s.env.callback) : callbackAccount u = callbackAccount s := by
  simp only [callbackAccount, callbackCommandsLeft, hr, hc]

theorem callbackAccount_of_keepsAccounts {s u : State} (h : KeepsAccounts s u) :
    callbackAccount u = callbackAccount s := callbackAccount_congr (h.responses _) h.callback

theorem callbackAccount_answered (a : Issuer) (w : RespWord) (s : State) :
    callbackAccount (answered a w s) = callbackAccount s + if a = .callback then 1 else 0 := by
  have hleft : callbackCommandsLeft (answered a w s) = callbackCommandsLeft s := rfl
  rw [callbackAccount, callbackAccount, hleft, responseCount_answered]
  omega

/-- R91: a poll answers MAIN or nobody. -/
theorem callbackAccount_pollRespond (o : Origin) (c : Code) (d : Byte) (s : State) :
    callbackAccount (pollRespond o c d s) = callbackAccount s := by
  cases o with
  | cmd => exact callbackAccount_answered .main _ s
  | auto => rfl

theorem callbackAccount_pollStart (o : Origin) (s : State) :
    callbackAccount (pollStart o s) = callbackAccount s := by
  have hread := callbackAccount_of_keepsAccounts (keepsAccounts_portRead s)
  rcases pollStart_cases o s with ⟨-, e⟩ | ⟨-, -, e⟩ | ⟨-, -, e⟩ <;> rw [e]
  · exact callbackAccount_pollRespond _ _ _ _
  · exact hread
  · exact (callbackAccount_pollRespond _ _ _ _).trans hread

theorem callbackAccount_dstep (s : State) : callbackAccount (dstep s) = callbackAccount s := by
  rcases dstep_cases s with ⟨p, -, e⟩ | ⟨-, e⟩ <;> rw [e]
  · exact callbackAccount_of_keepsAccounts (keepsAccounts_examine p s)
  · exact callbackAccount_pollRespond _ _ _ _

theorem callbackAccount_trigStep (s : State) : callbackAccount (trigStep s) = callbackAccount s := by
  rcases trigStep_cases s with ⟨-, e⟩ | ⟨-, -, e⟩ | ⟨-, -, -, e⟩ <;> rw [e]
  · rfl
  · exact callbackAccount_pollStart .auto s

/-- An accepted command adds one response of a callback's if a callback issued it, and none otherwise. -/
theorem callbackAccount_runCommand {c : Command} {s t : State} (h : runCommand c s = .next t) :
    callbackAccount t = callbackAccount s + if issuer s = .callback then 1 else 0 := by
  rcases runCommand_answers h with ⟨r, u, rfl, hu⟩ | ⟨hb, rfl⟩
  · rw [callbackAccount_answered, callbackAccount_of_keepsAccounts hu]
  · rw [callbackAccount_pollStart, issuer_of_not_busy hb, if_neg (by decide)]
    rfl

/-- Taking a callback's next act leaves one command less if that act is a command, and as many if it is CB_DONE. -/
theorem callbackAccount_takeAct {s : State} {a : CallbackAct} {rest : List CallbackAct}
    (h : s.env.callback = a :: rest) :
    callbackAccount { s with env := { s.env with callback := rest } } + (if isCommand a then 1 else 0) =
      callbackAccount s := by
  have hleft : callbackCommandsLeft s = rest.countP isCommand + if isCommand a then 1 else 0 := by
    rw [callbackCommandsLeft, h, List.countP_cons]
  rw [callbackAccount.eq_def s, hleft, ← Nat.add_assoc]
  rfl

/-- Settles O54: case by case over what a step can do. A command leaves the callbacks' list in the step that answers it, and no
other step answers a callback or takes a command of its list. -/
theorem callbackGetsExactlyOneResponseACommand : Obligations.CallbackGetsExactlyOneResponseACommand := by
  intro s t h
  change callbackAccount t = callbackAccount s
  rw [← callbackAccount_of_keepsAccounts (keepsAccounts_takeChoice s)]
  rcases step_cases h with rfl | ⟨c, rest, -, hb, -, hrun⟩ | ⟨c, rest, hc, hb, -, hrun⟩ | ⟨rest, hc, -, -, rfl⟩ |
    rfl | ⟨-, -, rfl⟩ | ⟨-, -, rfl⟩
  · rfl
  · rw [callbackAccount_runCommand hrun, issuer_of_not_busy (by simpa using hb), if_neg (by decide)]
    rfl
  · rw [callbackAccount_runCommand hrun, issuer_of_busy (by simpa using hb), if_pos rfl]
    exact callbackAccount_takeAct hc
  · exact callbackAccount_takeAct hc
  · exact callbackAccount_trigStep _
  · exact callbackAccount_dstep _
  · exact callbackAccount_pollStart .auto _

/-! ### The merge reads INTENT on OUTPUT pins only (R24, R69) -/

theorem eq_of_getBit {a b : Byte} (h : ∀ q : Pin, getBit a q = getBit b q) : a = b :=
  BitVec.eq_of_getLsbD_eq fun k hk => h ⟨k, hk⟩

@[simp] theorem getBit_merge (d i c : Byte) (q : Pin) :
    getBit (merge d i c) q = if getBit d q then getBit i q else getBit c q := by
  cases hd : getBit d q <;> simp [merge, hd]

theorem merge_congr {d i j : Byte} (c : Byte) (h : ∀ q : Pin, getBit d q = true → getBit i q = getBit j q) :
    merge d i c = merge d j c := by
  refine eq_of_getBit fun q => ?_
  rw [getBit_merge, getBit_merge]
  split
  · exact h q ‹_›
  · rfl

/-- What a committing write shows and leaves in CUR is the same from two states that differ in INTENT alone. -/
theorem writeShadow_shows (w d x i j : Byte) (s : State) :
    (writeShadow w d x s).obs = (writeShadow w d j { s with intent := i }).obs ∧
      (writeShadow w d x s).cur = (writeShadow w d j { s with intent := i }).cur := by
  have hanswer : portAnswer { s with intent := i } = portAnswer s := rfl
  have hissuer : issuer { s with intent := i } = issuer s := rfl
  rcases writeShadow_cases w d x s with ⟨hs, e⟩ | ⟨hs, e⟩ <;>
  rcases writeShadow_cases w d j { s with intent := i } with ⟨ht, f⟩ | ⟨ht, f⟩ <;> rw [e, f]
  · simp [hanswer, hissuer]
  · exact absurd hs ht
  · exact absurd ht hs
  · simp [hanswer, hissuer]

/-- R77, R107: so is what an update of one INTENT bit shows and leaves in CUR, if the updated INTENTs agree on OUTPUT pins. -/
theorem setOutBit_shows {s : State} {x : Byte} {p : Pin} {v v' : Bool}
    (h : ∀ q : Pin, getBit s.dir q = true → getBit (putBit s.intent p v) q = getBit (putBit x p v') q) :
    (setOutBit p v s).obs = (setOutBit p v' { s with intent := x }).obs ∧
      (setOutBit p v s).cur = (setOutBit p v' { s with intent := x }).cur := by
  rw [setOutBit_eq, setOutBit_eq, merge_congr s.cur h]
  exact writeShadow_shows _ _ _ _ _ s

theorem withPin_shows {pin : BitVec 4} {f g : Pin → State → State} {s u : State} (hissuer : issuer u = issuer s)
    (hobs : u.obs = s.obs) (hcur : u.cur = s.cur)
    (h : ∀ p, (f p s).obs = (g p u).obs ∧ (f p s).cur = (g p u).cur) :
    (withPin pin f s).obs = (withPin pin g u).obs ∧ (withPin pin f s).cur = (withPin pin g u).cur := by
  rcases pin_cases pin with ⟨p, hp⟩ | hp
  · rw [withPin_eq hp, withPin_eq hp]
    exact h p
  · rw [withPin_invalid hp, withPin_invalid hp]
    simp [hissuer, hobs, hcur]

/-- Settles O35: the new INTENT bytes of the two runs agree on the OUTPUT pins, the only lanes on which the merge reads them. -/
theorem intentOfInputPinsIsNotWritten : Obligations.IntentOfInputPinsIsNotWritten := by
  rintro i pin s t u x hi hx ht hu
  rcases hi with ⟨v, rfl⟩ | rfl <;> cases ht <;> cases hu <;>
    refine withPin_shows (u := { s with intent := x }) rfl rfl rfl fun p => setOutBit_shows fun q hq => ?_
  · rw [getBit_putBit, getBit_putBit, hx q hq]
  · rw [getBit_putBit, getBit_putBit, hx q hq]
    by_cases hqp : q = p
    · subst hqp; simp [hx q hq]
    · simp [hqp]

/-! ### No command reads PREV (R22) -/

/-- The state with another PREV. -/
def withPrev (q : Byte) (s : State) : State := { s with prev := q }

/-- An operation that does not read PREV: with another PREV before it, it leaves the same state but for PREV. -/
def PrevBlind (f : State → State) : Prop := ∀ s q, ∃ p, f (withPrev q s) = withPrev p (f s)

theorem prevBlind_of_commutes {f : State → State} (h : ∀ s q, f (withPrev q s) = withPrev q (f s)) : PrevBlind f :=
  fun s q => ⟨q, h s q⟩

theorem portAnswer_withPrev (q : Byte) (s : State) : portAnswer (withPrev q s) = portAnswer s := rfl

theorem takeAnswer_withPrev (q : Byte) (s : State) : takeAnswer (withPrev q s) = withPrev q (takeAnswer s) := by
  unfold takeAnswer withPrev
  dsimp only
  split <;> rfl

theorem portRead_withPrev (q : Byte) (s : State) : portRead (withPrev q s) = withPrev q (portRead s) := by
  rw [portRead, takeAnswer_withPrev]
  rfl

theorem portWrite_withPrev (w q : Byte) (s : State) : portWrite w (withPrev q s) = withPrev q (portWrite w s) := by
  rw [portWrite, takeAnswer_withPrev]
  rfl

theorem prevBlind_withPin (pin : BitVec 4) {f : Pin → State → State} (h : ∀ p, PrevBlind (f p)) :
    PrevBlind (withPin pin f) := by
  intro s q
  rcases pin_cases pin with ⟨p, hp⟩ | hp
  · rw [withPin_eq hp, withPin_eq hp]
    exact h p s q
  · rw [withPin_invalid hp, withPin_invalid hp]
    exact ⟨q, rfl⟩

theorem writeShadow_withPrev (w d x q : Byte) (s : State) :
    writeShadow w d x (withPrev q s) = withPrev q (writeShadow w d x s) := by
  rcases writeShadow_cases w d x s with ⟨hs, e⟩ | ⟨hs, e⟩ <;>
  rcases writeShadow_cases w d x (withPrev q s) with ⟨ht, f⟩ | ⟨ht, f⟩ <;> rw [e, f]
  · rw [portWrite_withPrev]; rfl
  · exact absurd hs ht
  · exact absurd ht hs
  · rw [portWrite_withPrev]; rfl

theorem prevBlind_applyDirBit (p : Pin) (out : Bool) : PrevBlind (applyDirBit p out) := fun s q =>
  ⟨q, by rw [applyDirBit_eq, applyDirBit_eq]; exact writeShadow_withPrev _ _ _ q s⟩

theorem prevBlind_setOutBit (p : Pin) (v : State → Bool) (hv : ∀ s q, v (withPrev q s) = v s) :
    PrevBlind fun s => setOutBit p (v s) s := fun s q =>
  ⟨q, by dsimp only; rw [hv, setOutBit_eq, setOutBit_eq]; exact writeShadow_withPrev _ _ _ q s⟩

theorem prevBlind_writeAll (w : Byte) : PrevBlind (writeAll w) := fun s q =>
  ⟨q, by rw [writeAll_eq, writeAll_eq]; exact writeShadow_withPrev _ _ _ q s⟩

theorem prevBlind_freshRead (data : Byte → Byte) : PrevBlind (freshRead data) := by
  intro s q
  refine ⟨q, ?_⟩
  rcases freshRead_cases data s with ⟨hs, e⟩ | ⟨hs, e⟩ <;>
  rcases freshRead_cases data (withPrev q s) with ⟨ht, f⟩ | ⟨ht, f⟩ <;> rw [e, f]
  · rw [portRead_withPrev]; rfl
  · exact absurd hs ht
  · exact absurd ht hs
  · rw [portRead_withPrev]; rfl

theorem pollRespond_withPrev (o : Origin) (c : Code) (d q : Byte) (s : State) :
    pollRespond o c d (withPrev q s) = withPrev q (pollRespond o c d s) := by
  cases o <;> rfl

/-- A poll's start overwrites PREV, or leaves it. -/
theorem prevBlind_pollStart (o : Origin) : PrevBlind (pollStart o) := by
  intro s q
  have hanswer := portAnswer_withPrev q s
  have hign : (withPrev q s).ign = s.ign := rfl
  unfold pollStart
  rw [hanswer, hign]
  split
  · exact ⟨q, pollRespond_withPrev o _ _ q { s with ign := false }⟩
  · split
    · exact ⟨s.cur, by rw [portRead_withPrev]; rfl⟩
    · exact ⟨q, by rw [portRead_withPrev, pollRespond_withPrev]⟩

/-- R92: a POLL of MAIN starts a poll, and one of a callback writes PEND. -/
theorem exec_poll_eq (s : State) :
    exec .poll s = .next (if s.busy then respond .callback .success pollDeferred { s with pend := true }
      else pollStart .cmd s) := by
  rcases Bool.eq_false_or_eq_true s.busy with hb | hb
  · simp only [exec, execPoll, issuer_of_busy hb, hb, if_true]
  · simp [exec, execPoll, issuer_of_not_busy hb, hb]

theorem prevBlind_poll : PrevBlind fun s =>
    if s.busy then respond .callback .success pollDeferred { s with pend := true } else pollStart .cmd s := by
  intro s q
  have hbusy : (withPrev q s).busy = s.busy := rfl
  dsimp only
  rw [hbusy]
  split
  · exact ⟨q, rfl⟩
  · exact prevBlind_pollStart .cmd s q

/-- What a command does is one operation, which does not read PREV. -/
theorem exec_prevBlind (i : Instr) : ∃ f, PrevBlind f ∧ ∀ s, exec i s = .next (f s) := by
  cases i with
  | setdir pin out apply =>
    refine ⟨_, prevBlind_withPin pin fun p => ?_, fun _ => rfl⟩
    cases apply with
    | false => exact prevBlind_of_commutes fun _ _ => rfl
    | true => exact prevBlind_applyDirBit p out
  | setout pin v => exact ⟨_, prevBlind_withPin pin fun p => prevBlind_setOutBit p _ fun _ _ => rfl, fun _ => rfl⟩
  | getin pin => exact ⟨_, prevBlind_withPin pin fun p => prevBlind_of_commutes fun _ _ => rfl, fun _ => rfl⟩
  | applyall v => exact ⟨_, prevBlind_writeAll v, fun _ => rfl⟩
  | clearall => exact ⟨_, prevBlind_writeAll _, fun _ => rfl⟩
  | setall => exact ⟨_, prevBlind_writeAll _, fun _ => rfl⟩
  | attach pin mode k => exact ⟨_, prevBlind_withPin pin fun p => prevBlind_of_commutes fun _ _ => rfl, fun _ => rfl⟩
  | detach pin => exact ⟨_, prevBlind_withPin pin fun p => prevBlind_of_commutes fun _ _ => rfl, fun _ => rfl⟩
  | poll => exact ⟨_, prevBlind_poll, exec_poll_eq⟩
  | inten en => exact ⟨_, prevBlind_of_commutes fun _ _ => rfl, fun _ => rfl⟩
  | ignore => exact ⟨_, prevBlind_of_commutes fun _ _ => rfl, fun _ => rfl⟩
  | pinmode pin pm =>
    cases pm with
    | reserved => exact ⟨_, prevBlind_of_commutes fun _ _ => rfl, fun _ => rfl⟩
    | _ => exact ⟨_, prevBlind_withPin pin fun p => prevBlind_of_commutes fun _ _ => rfl, fun _ => rfl⟩
  | toggle pin =>
    exact ⟨_, prevBlind_withPin pin fun p => prevBlind_setOutBit p (fun s => !getBit s.intent p) fun _ _ => rfl,
      fun _ => rfl⟩
  | dread pin => exact ⟨_, prevBlind_withPin pin fun p => prevBlind_freshRead _, fun _ => rfl⟩
  | pread => exact ⟨_, prevBlind_freshRead _, fun _ => rfl⟩

/-- Settles O36: a command is an operation that does not read PREV, so the two runs end in states that differ in PREV at most. -/
theorem commandsDoNotRevealPrev : Obligations.CommandsDoNotRevealPrev := by
  intro i s t q h
  obtain ⟨f, hblind, hf⟩ := exec_prevBlind i
  obtain ⟨p, hp⟩ := hblind s q
  obtain rfl : f s = t := by simpa [hf s] using h
  exact ⟨withPrev p (f s), (hf _).trans (congrArg Host.Outcome.next hp), rfl, rfl, rfl⟩

end Sys2Proof.Machine


/-! ## Family 20_memory.md: the port transactions of every command and of every other step -/

namespace Sys2Proof.Machine

/-! ### Counting the reads and writes of an operation (R44) -/

/-- Going from `s` to `t` makes `reads` read and `writes` write transactions. -/
structure Transacts (reads writes : Nat) (s t : State) : Prop where
  reads : readCount t = readCount s + reads
  writes : writeCount t = writeCount s + writes

section Transacts

variable {r w : Nat} {s u v : State}

theorem transacts_of_obs (h : u.obs = s.obs) : Transacts 0 0 s u :=
  ⟨readCount_of_obs h, writeCount_of_obs h⟩

theorem transacts_of_end (h : Transacts r w s u) (hobs : v.obs = u.obs) : Transacts r w s v :=
  ⟨(readCount_of_obs hobs).trans h.reads, (writeCount_of_obs hobs).trans h.writes⟩

theorem transacts_of_start (h : Transacts r w u v) (hobs : u.obs = s.obs) : Transacts r w s v :=
  ⟨readCount_of_obs hobs ▸ h.reads, writeCount_of_obs hobs ▸ h.writes⟩

theorem transacts_answered (a : Issuer) (x : RespWord) (h : Transacts r w s u) : Transacts r w s (answered a x u) :=
  ⟨(readCount_answered u a x).trans h.reads, (writeCount_answered u a x).trans h.writes⟩

theorem transacts_pollRespond (o : Origin) (c : Code) (d : Byte) (h : Transacts r w s u) :
    Transacts r w s (pollRespond o c d u) :=
  ⟨(readCount_pollRespond u o c d).trans h.reads, (writeCount_pollRespond u o c d).trans h.writes⟩

end Transacts

theorem transacts_portRead (s : State) : Transacts 1 0 s (portRead s) :=
  ⟨readCount_portRead s, writeCount_portRead s⟩

theorem transacts_portWrite (x : Byte) (s : State) : Transacts 0 1 s (portWrite x s) :=
  ⟨readCount_portWrite s x, writeCount_portWrite s x⟩

/-! ### The operations that reach the port -/

/-- R71, R73: a committing write makes its one write whether it succeeds or fails. -/
theorem transacts_writeShadow (x d i : Byte) (s : State) : Transacts 0 1 s (writeShadow x d i s) := by
  rcases writeShadow_cases x d i s with ⟨-, e⟩ | ⟨-, e⟩ <;> rw [e]
  · exact transacts_answered _ _ (transacts_of_end (transacts_portWrite x s) rfl)
  · exact transacts_answered _ _ (transacts_portWrite x s)

theorem transacts_freshRead (data : Byte → Byte) (s : State) : Transacts 1 0 s (freshRead data s) := by
  rcases freshRead_cases data s with ⟨-, e⟩ | ⟨-, e⟩ <;> rw [e]
  · exact transacts_answered _ _ (transacts_of_end (transacts_portRead s) rfl)
  · exact transacts_answered _ _ (transacts_portRead s)

/-- R91: a poll's start reads the port once, unless the IgnoreFlag stops it before the read. -/
theorem transacts_pollStart (o : Origin) (s : State) : Transacts (if s.ign then 0 else 1) 0 s (pollStart o s) := by
  rcases pollStart_cases o s with ⟨hign, e⟩ | ⟨hign, -, e⟩ | ⟨hign, -, e⟩ <;> rw [e, hign]
  · exact transacts_pollRespond _ _ _ (transacts_of_obs rfl)
  · exact transacts_of_end (transacts_portRead s) rfl
  · exact transacts_pollRespond _ _ _ (transacts_portRead s)

/-! ### Commands -/

/-- The table of R44 asks for a transaction of no kind where PIN is 8..15. -/
theorem commandCounts_of_invalidPin {i : Instr} {pin : BitVec 4} (hi : perPinOperand i = some pin)
    (hpin : 8 ≤ pin.toNat) (s : State) : commandReads i s = 0 ∧ commandWrites i = 0 := by
  cases i <;> cases hi <;> simp [commandReads, commandWrites, hpin]

theorem commandCounts_of_writes {i : Instr} {s : State} {d x : Byte} (h : Writes i s d x) :
    commandReads i s = 0 ∧ commandWrites i = 1 := by
  rcases h with ⟨pin, out, rfl, hpin, -⟩ | ⟨-, ⟨pin, ⟨v, rfl⟩ | rfl, hpin⟩ | ⟨v, rfl⟩ | rfl | rfl⟩ <;>
    simp [commandReads, commandWrites, *]

theorem exec_transacts {i : Instr} {s t : State} (h : exec i s = .next t) :
    Transacts (commandReads i s) (commandWrites i) s t := by
  rcases exec_cases h with ⟨pin, hi, hpin, rfl⟩ | ⟨_, rfl, rfl⟩ | ⟨_, _, rfl, rfl⟩ | ⟨d, hi, rfl⟩ | ⟨p, b, hi, rfl⟩ |
    ⟨_, rfl, rfl⟩ | ⟨rfl, rfl⟩ | ⟨x, d, j, hw, rfl⟩ | ⟨data, hi, rfl⟩ | ⟨rfl, hb, rfl⟩ | ⟨rfl, hb, rfl⟩
  · obtain ⟨hr, hw⟩ := commandCounts_of_invalidPin hi hpin s
    rw [hr, hw]
    exact transacts_answered _ _ (transacts_of_obs rfl)
  -- ILLEGAL and GETIN.
  · exact transacts_answered _ _ (transacts_of_obs rfl)
  · exact transacts_answered _ _ (transacts_of_obs rfl)
  · rcases hi with ⟨pin, out, rfl⟩ | ⟨pin, pm, rfl⟩ <;> exact transacts_answered _ _ (transacts_of_obs rfl)
  · rcases hi with ⟨pin, mode, k, rfl⟩ | ⟨pin, rfl⟩ <;> exact transacts_answered _ _ (transacts_of_obs rfl)
  -- INTEN and IGNORE.
  · exact transacts_answered _ _ (transacts_of_obs rfl)
  · exact transacts_answered _ _ (transacts_of_obs rfl)
  · obtain ⟨hr, hw⟩ := commandCounts_of_writes hw
    rw [hr, hw]
    exact transacts_writeShadow x d j s
  · obtain ⟨hr, hw⟩ : commandReads i s = 1 ∧ commandWrites i = 0 := by
      rcases hi with ⟨pin, rfl, hpin⟩ | rfl <;> simp [commandReads, commandWrites, *]
    rw [hr, hw]
    exact transacts_freshRead data s
  · simpa [commandReads, commandWrites, hb] using transacts_pollStart .cmd s
  · have hr : commandReads .poll s = 0 := by simp [commandReads, hb]
    rw [hr]
    exact transacts_answered _ _ (transacts_of_obs rfl)

/-- R63: a word that answers ILLEGAL reaches no port. -/
theorem runCommand_illegal_transacts {c : Command} {s t : State} (hc : illegalWord c.word)
    (h : runCommand c s = .next t) : Transacts 0 0 s t := by
  rw [runCommand_of_illegal hc] at h
  cases h
  exact transacts_answered _ _ (transacts_of_obs rfl)

/-! ### The steps that are not commands -/

theorem transacts_enterHandler (p : Pin) (k : Callback) (s : State) : Transacts 0 0 s (enterHandler p k s) :=
  ⟨by simp [readCount, isRead], by simp [writeCount, isWrite]⟩

theorem dstep_transacts (s : State) : Transacts 0 0 s (dstep s) := by
  rcases dstep_cases s with ⟨p, -, e⟩ | ⟨-, e⟩ <;> rw [e]
  · rcases examine_cases p s with ⟨b, -, -, e⟩ | ⟨-, e⟩ <;> rw [e]
    · exact transacts_of_start (transacts_enterHandler p b.handle _) rfl
    · exact transacts_of_obs rfl
  · exact transacts_pollRespond _ _ _ (transacts_of_obs rfl)

theorem callbackDone_transacts (s : State) : Transacts 0 0 s (callbackDone s) := transacts_of_obs rfl

theorem deferStep_transacts (s : State) : Transacts (if s.ign then 0 else 1) 0 s (deferStep s) :=
  transacts_of_start (transacts_pollStart .auto { s with pend := false }) rfl

theorem trigStep_transacts (s : State) :
    Transacts (if s.ten && !s.busy && !s.pend && !s.ign then 1 else 0) 0 s (trigStep s) := by
  rcases trigStep_cases s with ⟨ht, e⟩ | ⟨ht, hb, e⟩ | ⟨ht, hb, hp, e⟩ <;> rw [e]
  · rw [ht]
    exact transacts_of_obs rfl
  · have hoff : (s.ten && !s.busy && !s.pend && !s.ign) = false := by
      rcases hb with hb | hp <;> simp [*]
    rw [hoff]
    exact transacts_of_obs rfl
  · have hstart : (if s.ten && !s.busy && !s.pend && !s.ign then 1 else 0) = if s.ign then 0 else 1 := by
      cases hign : s.ign <;> simp [ht, hb, hp]
    rw [hstart]
    exact transacts_pollStart .auto s

/-- Settles O40, row by row of the table: the commands by what a command can do, then each step that is no command. -/
theorem transactionsFollowTheTable : Obligations.TransactionsFollowTheTable :=
  ⟨fun _ _ _ h => ⟨(exec_transacts h).reads, (exec_transacts h).writes⟩,
    fun _ _ _ _ hill h => ⟨(runCommand_illegal_transacts hill h).reads, (runCommand_illegal_transacts hill h).writes⟩,
    fun s => ⟨(dstep_transacts s).reads, (dstep_transacts s).writes,
      (callbackDone_transacts s).reads, (callbackDone_transacts s).writes⟩,
    fun s => ⟨(deferStep_transacts s).reads, (deferStep_transacts s).writes⟩,
    fun s => ⟨(trigStep_transacts s).reads, (trigStep_transacts s).writes⟩⟩

end Sys2Proof.Machine


/-! ## Family 30_encoding.md: the decoder against the encoder, the words of R63, the response word, and legal observations -/

namespace Sys2Proof.Machine

/-! ### The layouts of DATA that hold an operand below reserved-zero bits (R57 to R59): reading one that was put together -/

section ReadData

variable (m : BitVec 2) (b out apply : Bool)

@[simp] theorem modeData_high : (0#6 ++ m : Byte).extractLsb' 2 6 = 0#6 := BitVec.extractLsb'_append_eq_left

@[simp] theorem modeData_low : (0#6 ++ m : Byte).extractLsb' 0 2 = m := BitVec.extractLsb'_append_eq_right

@[simp] theorem bitData_high : (0#7 ++ BitVec.ofBool b : Byte).extractLsb' 1 7 = 0#7 :=
  BitVec.extractLsb'_append_eq_left

@[simp] theorem bitData_low : (0#7 ++ BitVec.ofBool b : Byte)[0] = b := by cases b <;> rfl

@[simp] theorem flagData_high : (0#6 ++ BitVec.ofBool apply ++ BitVec.ofBool out : Byte).extractLsb' 2 6 = 0#6 := by
  cases out <;> cases apply <;> rfl

@[simp] theorem flagData_out : (0#6 ++ BitVec.ofBool apply ++ BitVec.ofBool out : Byte)[0] = out := by
  cases out <;> cases apply <;> rfl

@[simp] theorem flagData_apply : (0#6 ++ BitVec.ofBool apply ++ BitVec.ofBool out : Byte)[1] = apply := by
  cases out <;> cases apply <;> rfl

end ReadData

/-! ### The same layouts: putting together again what was read -/

section WriteData

variable {d : Byte}

theorem modeData_of_read (h : d.extractLsb' 2 6 = 0#6) : 0#6 ++ d.extractLsb' 0 2 = d := by
  revert d; decide

theorem bitData_of_read (h : d.extractLsb' 1 7 = 0#7) : 0#7 ++ BitVec.ofBool d[0] = d := by
  revert d; decide

theorem flagData_of_read (h : d.extractLsb' 2 6 = 0#6) :
    0#6 ++ BitVec.ofBool d[1] ++ BitVec.ofBool d[0] = d := by
  revert d; decide

end WriteData

theorem pinModeBits_eq_three {pm : PinMode} : pinModeBits pm = 3#2 ↔ pm = .reserved := by cases pm <;> decide

/-! ### Decoding what was encoded (R65, R67) -/

/-- Settles O1: the decoder takes the word of each command apart into the fields it was put together from. -/
theorem decodeOfEncodeIsTheCommand : Obligations.DecodeOfEncodeIsTheCommand := by
  intro i other hwf
  cases i with
  | attach pin mode k => simp [encode, decode, ifReservedZero, handleOf]
  | pinmode pin pm =>
    have hpm : pm ≠ .reserved := by simpa [wellFormed] using hwf
    simp [encode, decode, pinModeBits_eq_three, hpm]
  -- Every operand of the other commands is legal, and its layout reads back what was written.
  | _ => simp [encode, decode, ifReservedZero]

/-! ### Encoding what was decoded (R57, R63) -/

/-- The command `i` is legal, its word is `w`, and a handle it carries is `h`. -/
def StandsFor (w : Word) (h : Callback) (i : Instr) : Prop :=
  encode i = w ∧ wellFormed i = true ∧ handleOf h i = h

theorem standsFor_of_ifReservedZero {clear : Bool} {w : Word} {h : Callback} {i j : Instr}
    (hd : ifReservedZero clear i = .ok j) (hi : clear = true → StandsFor w h i) : StandsFor w h j := by
  obtain ⟨hclear, rfl⟩ := ifReservedZero_ok hd
  exact hi hclear

/-- Settles O2: row by row, clear reserved-zero bits leave the word nothing but what the encoder writes. -/
theorem encodeOfDecodeIsTheWord : Obligations.EncodeOfDecodeIsTheWord := by
  intro w h i hd
  change StandsFor w h i
  rw [← commandWord_fields w] at hd ⊢
  generalize opField w = op, pinField w = pin, dataField w = d at hd ⊢
  simp only [decode, opField_commandWord, pinField_commandWord, dataField_commandWord] at hd
  split at hd
  case h_12 =>
    split at hd
    · split at hd
      · cases hd
      · next hhigh hlow =>
        cases hd
        have hpm : pinModeOf (d.extractLsb' 0 2) ≠ .reserved := by simpa [← pinModeBits_eq_three] using hlow
        exact ⟨by simp [encode, modeData_of_read (by simpa using hhigh)], by simpa [wellFormed] using hpm, rfl⟩
    · cases hd
  case h_16 => cases hd
  -- The other opcodes have reserved-zero bits and no other condition.
  all_goals
    refine standsFor_of_ifReservedZero hd fun hclear => ⟨?_, rfl, rfl⟩
    simp only [Bool.and_eq_true, beq_iff_eq] at hclear
    simp [encode, modeData_of_read, bitData_of_read, flagData_of_read, hclear]

/-! ### Illegal words (R63) -/

/-- Settles O3: the words the decoder refuses are those of the three clauses. -/
theorem illegalWordsAnswerIllegalAndOthersRun : Obligations.IllegalWordsAnswerIllegalAndOthersRun := by
  refine fun w h s => ⟨fun hill => runCommand_of_illegal hill s, fun hlegal => ?_⟩
  cases hd : decode w h with
  | error e => exact absurd ((decode_error_iff w h).1 ⟨e, hd⟩) hlegal
  | ok i => exact ⟨i, rfl, runCommand_of_ok hd s⟩

/-! ### The response word (R60, R61) -/

theorem respWord_toNat (c : Code) (d : Byte) : (respWord c d).toNat = (codeBits c).toNat * 256 + d.toNat := by
  rw [respWord, BitVec.toNat_append, ← Nat.shiftLeft_add_eq_or_of_lt d.isLt, Nat.shiftLeft_eq]

@[simp] theorem respCode_respWord (c : Code) (d : Byte) : respCode (respWord c d) = codeBits c :=
  BitVec.extractLsb'_append_eq_left

@[simp] theorem respData_respWord (c : Code) (d : Byte) : respData (respWord c d) = d :=
  BitVec.extractLsb'_append_eq_right

/-- Settles O5: CODE stands eight bits above DATA, and the codes are read off the table. -/
theorem responseWordIsCodeThenData : Obligations.ResponseWordIsCodeThenData :=
  ⟨respWord_toNat, fun _ => rfl, fun _ => codeOfStatus_failure, rfl, rfl⟩

/-! ### Legal observations (R9, R60, R61) -/

theorem codeBits_ne_seven (c : Code) : codeBits c ≠ 7#3 := by cases c <;> decide

theorem codeBits_eq_zero {c : Code} : codeBits c = 0#3 ↔ c = .success := by cases c <;> decide

/-- A response of the model's own form is legal if it is a success or its DATA is 0x00. -/
theorem legalObs_respWord (a : Issuer) {c : Code} {d : Byte} (h : c = .success ∨ d = 0x00#8) :
    legalObs (.response a (respWord c d)) := by
  refine ⟨by simpa using codeBits_ne_seven c, fun hcode => ?_⟩
  rw [respCode_respWord, Ne, codeBits_eq_zero] at hcode
  simpa using h.resolve_left hcode

theorem legalObs_successWord (a : Issuer) (d : Byte) : legalObs (.response a (successWord d)) :=
  legalObs_respWord a (c := .success) (.inl rfl)

theorem legalObs_failureWord (a : Issuer) (st : PortStatus) : legalObs (.response a (failureWord st)) := by
  rw [← codeOfStatus_failure]
  exact legalObs_respWord a (.inr rfl)

theorem legalObs_invalidPin (a : Issuer) : legalObs (.response a 0x500#11) :=
  legalObs_respWord a (c := .invalidPin) (d := 0x00#8) (.inr rfl)

theorem legalObs_illegal (a : Issuer) : legalObs (.response a 0x600#11) :=
  legalObs_respWord a (c := .illegal) (d := 0x00#8) (.inr rfl)

section ObsLegal

variable {s u : State}

theorem obsLegal_of_obs (h : obsLegal s) (hobs : u.obs = s.obs) : obsLegal u := by
  rwa [obsLegal, hobs]

theorem obsLegal_of_cons {o : Obs} (h : obsLegal s) (ho : legalObs o) (hobs : u.obs = o :: s.obs) : obsLegal u := by
  rw [obsLegal, hobs]
  exact List.forall_mem_cons.2 ⟨ho, h⟩

theorem obsLegal_answered {a : Issuer} {w : RespWord} (h : obsLegal s) (hw : legalObs (.response a w)) :
    obsLegal (answered a w s) := obsLegal_of_cons h hw rfl

theorem obsLegal_succeeds {a : Issuer} (d : Byte) (h : obsLegal s) (hobs : u.obs = s.obs) :
    obsLegal (answered a (successWord d) u) := obsLegal_answered (obsLegal_of_obs h hobs) (legalObs_successWord a d)

theorem obsLegal_portRead (h : obsLegal s) : obsLegal (portRead s) :=
  obsLegal_of_cons h (o := .portRead _ _ _) rfl (portRead_obs s)

theorem obsLegal_portWrite (w : Byte) (h : obsLegal s) : obsLegal (portWrite w s) :=
  obsLegal_of_cons h (o := .portWrite _ _ _) rfl (portWrite_obs s w)

theorem obsLegal_pollRespond (o : Origin) {c : Code} {d : Byte} (hcd : c = .success ∨ d = 0x00#8) (h : obsLegal s) :
    obsLegal (pollRespond o c d s) := by
  cases o with
  | cmd => exact obsLegal_answered h (legalObs_respWord .main hcd)
  | auto => exact h

theorem obsLegal_writeShadow (w d x : Byte) (h : obsLegal s) : obsLegal (writeShadow w d x s) := by
  have hwrite := obsLegal_portWrite w h
  rcases writeShadow_cases w d x s with ⟨-, e⟩ | ⟨-, e⟩ <;> rw [e]
  · exact obsLegal_succeeds _ hwrite rfl
  · exact obsLegal_answered hwrite (legalObs_failureWord _ _)

theorem obsLegal_freshRead (data : Byte → Byte) (h : obsLegal s) : obsLegal (freshRead data s) := by
  have hread := obsLegal_portRead h
  rcases freshRead_cases data s with ⟨-, e⟩ | ⟨-, e⟩ <;> rw [e]
  · exact obsLegal_succeeds _ hread rfl
  · exact obsLegal_answered hread (legalObs_failureWord _ _)

theorem obsLegal_pollStart (o : Origin) (h : obsLegal s) : obsLegal (pollStart o s) := by
  have hread := obsLegal_portRead h
  rcases pollStart_cases o s with ⟨-, e⟩ | ⟨-, -, e⟩ | ⟨-, -, e⟩ <;> rw [e]
  · exact obsLegal_pollRespond o (.inl rfl) (obsLegal_of_obs h rfl)
  · exact obsLegal_of_obs hread rfl
  · exact obsLegal_pollRespond o (.inr rfl) hread

theorem exec_keeps_obsLegal {i : Instr} (hx : exec i s = .next u) (h : obsLegal s) : obsLegal u := by
  rcases exec_cases hx with ⟨_, -, -, rfl⟩ | ⟨_, -, rfl⟩ | ⟨_, _, -, rfl⟩ | ⟨d, -, rfl⟩ | ⟨p, b, -, rfl⟩ |
    ⟨en, -, rfl⟩ | ⟨-, rfl⟩ | ⟨w, d, x, -, rfl⟩ | ⟨data, -, rfl⟩ | ⟨-, -, rfl⟩ | ⟨-, -, rfl⟩
  -- INVALID_PIN and ILLEGAL.
  · exact obsLegal_answered h (legalObs_invalidPin _)
  · exact obsLegal_answered h (legalObs_illegal _)
  -- The successes without a transaction.
  · exact obsLegal_succeeds _ h rfl
  · exact obsLegal_succeeds 0x00#8 h rfl
  · exact obsLegal_succeeds 0x00#8 h rfl
  · exact obsLegal_succeeds 0x00#8 h rfl
  · exact obsLegal_succeeds 0x00#8 h rfl
  · exact obsLegal_writeShadow w d x h
  · exact obsLegal_freshRead data h
  · exact obsLegal_pollStart .cmd h
  · exact obsLegal_succeeds pollDeferred h rfl

theorem runCommand_keeps_obsLegal {c : Command} (hrun : runCommand c s = .next u) (h : obsLegal s) : obsLegal u := by
  rcases runCommand_cases hrun with ⟨i, -, hi⟩ | ⟨-, rfl⟩
  · exact exec_keeps_obsLegal hi h
  · exact obsLegal_answered h (legalObs_illegal _)

theorem obsLegal_trigStep (h : obsLegal s) : obsLegal (trigStep s) := by
  rcases trigStep_cases s with ⟨-, e⟩ | ⟨-, -, e⟩ | ⟨-, -, -, e⟩ <;> rw [e]
  · exact h
  · exact obsLegal_of_obs h rfl
  · exact obsLegal_pollStart .auto h

theorem obsLegal_dstep (h : obsLegal s) : obsLegal (dstep s) := by
  rcases dstep_cases s with ⟨p, -, e⟩ | ⟨-, e⟩ <;> rw [e]
  · rcases examine_cases p s with ⟨b, -, -, e⟩ | ⟨-, e⟩ <;> rw [e]
    · exact obsLegal_of_cons h (o := .fire p b.handle) trivial rfl
    · exact obsLegal_of_obs h rfl
  · exact obsLegal_pollRespond _ (.inl rfl) (obsLegal_of_obs h rfl)

theorem obsLegal_deferStep (h : obsLegal s) : obsLegal (deferStep s) :=
  obsLegal_pollStart .auto (obsLegal_of_obs h rfl)

end ObsLegal

/-- Settles O52: case by case over what a step can do. What a turn takes from the environment shows nothing, and each operation
shows legal events only. -/
theorem stepKeepsObservationsLegal : Obligations.StepKeepsObservationsLegal := by
  intro s t h hstep
  have hchoice : obsLegal (takeChoice s) := obsLegal_of_obs h (takeChoice_obs s)
  rcases step_cases hstep with rfl | ⟨c, rest, -, -, -, hrun⟩ | ⟨c, rest, -, -, -, hrun⟩ | ⟨rest, -, -, -, rfl⟩ |
    rfl | ⟨-, -, rfl⟩ | ⟨-, -, rfl⟩
  · exact hchoice
  · exact runCommand_keeps_obsLegal hrun (obsLegal_of_obs hchoice rfl)
  · exact runCommand_keeps_obsLegal hrun (obsLegal_of_obs hchoice rfl)
  · exact obsLegal_of_obs hchoice rfl
  · exact obsLegal_trigStep hchoice
  · exact obsLegal_dstep hchoice
  · exact obsLegal_deferStep hchoice

end Sys2Proof.Machine


/-! ## Family 40_pin_state_shadow.md: the merge, the shadow commands with their whole next states, and the shadow registers -/

namespace Sys2Proof.Machine

/-! ### The merge (R69, R70) -/

@[simp] theorem getBit_ones (q : Pin) : getBit 0xFF#8 q = true := by
  revert q; decide

@[simp] theorem merge_self (d c : Byte) : merge d c c = c :=
  eq_of_getBit fun q => by rw [getBit_merge, ite_self]

/-- Settles O11: the formula is the definition, and each of its operators acts lane by lane. -/
theorem mergeSelectsByDirectionLane : Obligations.MergeSelectsByDirectionLane := fun d i c => ⟨rfl, getBit_merge d i c⟩

/-- Settles O12, lane by lane; the last law since an INPUT lane does not read INTENT. -/
theorem mergeLaws : Obligations.MergeLaws := by
  refine ⟨fun i c => ⟨?_, ?_⟩, fun d i c => ⟨?_, ?_⟩, merge_self, fun d i c q v hq => ?_⟩
  · exact eq_of_getBit fun p => by simp
  · exact eq_of_getBit fun p => by simp
  · exact eq_of_getBit fun p => by cases hd : getBit d p <;> simp [hd]
  · exact eq_of_getBit fun p => by cases hd : getBit d p <;> simp [hd]
  · refine merge_congr c fun p hp => ?_
    have hpq : p ≠ q := fun e => by rw [e, hq] at hp; cases hp
    rw [getBit_putBit, if_neg hpq]

/-! ### A committing write: its whole next state (R71, R73) -/

section WriteShadow

variable {w d x : Byte} {s : State}

theorem writeShadow_of_success (h : (portAnswer s).status = .success) :
    writeShadow w d x s = { takeAnswer s with
      dir := d, intent := x, cur := w
      obs := .response (issuer s) (successWord w) :: .portWrite Config.devAddr w .success :: s.obs } := by
  rcases writeShadow_cases w d x s with ⟨-, e⟩ | ⟨hfail, -⟩
  · rw [e]
    simp [answered, portWrite, observe, h]
  · exact absurd h hfail

theorem writeShadow_of_failure {st : PortStatus} (h : (portAnswer s).status = st) (hst : st ≠ .success) :
    writeShadow w d x s = { takeAnswer s with
      obs := .response (issuer s) (failureWord st) :: .portWrite Config.devAddr w st :: s.obs } := by
  subst h
  rcases writeShadow_cases w d x s with ⟨hsuccess, -⟩ | ⟨-, e⟩
  · exact absurd hsuccess hst
  · rw [e]
    simp [answered, portWrite, observe]

@[simp] theorem writeShadow_busy : (writeShadow w d x s).busy = s.busy := by
  rcases writeShadow_cases w d x s with ⟨-, e⟩ | ⟨-, e⟩ <;> simp [e]

@[simp] theorem issuer_writeShadow : issuer (writeShadow w d x s) = issuer s := by
  simp [issuer]

theorem writeShadow_obs :
    ∃ r, (writeShadow w d x s).obs = r :: .portWrite Config.devAddr w (portAnswer s).status :: s.obs := by
  rcases writeShadow_cases w d x s with ⟨-, e⟩ | ⟨-, e⟩ <;> rw [e] <;>
    exact ⟨_, congrArg (List.cons _) (portWrite_obs s w)⟩

end WriteShadow

/-! ### What each shadow command is (R76 to R82) -/

section ShadowCommands

variable {pin : BitVec 4} {p : Pin} {s : State}

theorem exec_setdir_noApply (h : pin.toNat = p.val) (out : Bool) :
    exec (.setdir pin out false) s = .next (answered (issuer s) 0x000#11 { s with dir := putBit s.dir p out }) :=
  congrArg Host.Outcome.next (withPin_eq h (fun p => setDirBit p out) s)

theorem exec_setdir_apply (h : pin.toNat = p.val) (out : Bool) :
    exec (.setdir pin out true) s = .next
      (writeShadow (merge (putBit s.dir p out) s.intent s.cur) (putBit s.dir p out) s.intent s) := by
  rw [← applyDirBit_eq, ← withPin_eq h (fun p => applyDirBit p out)]
  rfl

theorem exec_setout (h : pin.toNat = p.val) (v : Bool) :
    exec (.setout pin v) s = .next
      (writeShadow (merge s.dir (putBit s.intent p v) s.cur) s.dir (putBit s.intent p v) s) := by
  rw [← setOutBit_eq, ← withPin_eq h (fun p => setOutBit p v)]
  rfl

theorem exec_getin (h : pin.toNat = p.val) :
    exec (.getin pin) s = .next (answered (issuer s) (successWord (zextBit (getBit s.cur p))) s) :=
  congrArg Host.Outcome.next
    (withPin_eq h (fun p t => respond (issuer t) .success (zextBit (getBit t.cur p)) t) s)

/-- APPLYALL, CLEARALL and SETALL are one operation, of the literal byte. -/
theorem exec_bulkWrite {i : Instr} {w : Byte}
    (h : i = .applyall w ∨ (i = .clearall ∧ w = 0x00#8) ∨ (i = .setall ∧ w = 0xFF#8)) :
    exec i s = .next (writeShadow w s.dir w s) := by
  rw [← writeAll_eq]
  rcases h with rfl | ⟨rfl, rfl⟩ | ⟨rfl, rfl⟩ <;> rfl

end ShadowCommands

/-! ### The shadow commands (R76 to R78, R80 to R82) -/

/-- Settles O20: by the round trip of the decoder, the range check, and the two outcomes of the write with the new DIR. -/
theorem setdirSetsOneDirectionBit : Obligations.SetdirSetsOneDirectionBit := by
  refine fun pin out apply s => ⟨fun h => decodeOfEncodeIsTheCommand (.setdir pin out apply) h rfl,
    fun hpin => congrArg Host.Outcome.next (withPin_invalid hpin _ s), ?_⟩
  rintro p _ _ hp rfl rfl
  refine ⟨?_, ?_, ?_⟩
  · rintro rfl
    exact exec_setdir_noApply hp out
  · rintro rfl hs
    rw [exec_setdir_apply hp, writeShadow_of_success hs]
    simp
  · rintro st rfl hs hst
    rw [exec_setdir_apply hp, writeShadow_of_failure hs hst]

/-- Settles O21: by the round trip of the decoder, the range check, and the two outcomes of the write with the new INTENT. -/
theorem setoutWritesTheMergedByte : Obligations.SetoutWritesTheMergedByte := by
  refine fun pin v s => ⟨fun h => decodeOfEncodeIsTheCommand (.setout pin v) h rfl,
    fun hpin => congrArg Host.Outcome.next (withPin_invalid hpin _ s), ?_⟩
  rintro p _ _ hp rfl rfl
  refine ⟨fun hs => ?_, fun st hs hst => ?_⟩
  · rw [exec_setout hp, writeShadow_of_success hs]
    simp
  · rw [exec_setout hp, writeShadow_of_failure hs hst]

/-- Settles O22: by the round trip of the decoder and the range check. -/
theorem getinAnswersTheShadowBit : Obligations.GetinAnswersTheShadowBit := fun pin s =>
  ⟨fun h => decodeOfEncodeIsTheCommand (.getin pin) h rfl,
    fun hpin => congrArg Host.Outcome.next (withPin_invalid hpin _ s), fun _ hp => exec_getin hp⟩

/-- Settles O23: by the round trip of the decoder and the two outcomes of the one write. -/
theorem bulkWritesWriteTheLiteralByte : Obligations.BulkWritesWriteTheLiteralByte := by
  refine ⟨fun w h => ⟨decodeOfEncodeIsTheCommand (.applyall w) h rfl, decodeOfEncodeIsTheCommand .clearall h rfl,
    decodeOfEncodeIsTheCommand .setall h rfl⟩, fun i w s hi => ⟨fun hs => ?_, fun st hs hst => ?_⟩⟩
  · rw [exec_bulkWrite hi, writeShadow_of_success hs]
    simp
  · rw [exec_bulkWrite hi, writeShadow_of_failure hs hst]

/-! ### Consequences for the shadow registers (R71, R72, R77) -/

/-- Settles O30: the new INTENT is the one-bit update and the new CUR its merge, each known lane by lane. -/
theorem setoutLeavesOtherLanes : Obligations.SetoutLeavesOtherLanes := by
  refine fun pin p v s hp hs => ⟨_, exec_setout hp v, fun q => ?_⟩
  rw [writeShadow_of_success hs]
  exact ⟨getBit_putBit _ p q v, getBit_merge _ _ _ q⟩

/-- Settles O31: on an OUTPUT lane the byte written, which is the new CUR, is the new INTENT. -/
theorem setoutThenGetinLoopsBack : Obligations.SetoutThenGetinLoopsBack := by
  refine fun pin p v s hp hdir hs => ⟨_, exec_setout hp v, ?_⟩
  have hcur : getBit (writeShadow (merge s.dir (putBit s.intent p v) s.cur) s.dir (putBit s.intent p v) s).cur p = v := by
    rw [writeShadow_of_success hs]
    simp [hdir]
  rw [exec_getin hp, hcur, issuer_writeShadow]
  rfl

/-- Settles O34: INTENT and CUR are both the byte written, so the merge picks it on every lane. -/
theorem bulkWriteFixesTheMerge : Obligations.BulkWriteFixesTheMerge := by
  refine fun i w s hi hs => ⟨_, exec_bulkWrite hi, ?_⟩
  rw [writeShadow_of_success hs]
  exact ⟨rfl, fun d => merge_self d w⟩

/-- R44, R71: the commands that write the port are committing writes. -/
theorem exec_writes_or_not {i : Instr} {s t : State} (h : exec i s = .next t) :
    (∃ w d x, t = writeShadow w d x s) ∨ writeCount t = writeCount s := by
  rcases exec_cases h with ⟨_, _, _, rfl⟩ | ⟨_, _, rfl⟩ | ⟨_, _, _, rfl⟩ | ⟨_, _, rfl⟩ | ⟨_, _, _, rfl⟩ |
    ⟨_, _, rfl⟩ | ⟨_, rfl⟩ | ⟨w, d, x, _, rfl⟩ | ⟨data, _, rfl⟩ | ⟨_, _, rfl⟩ | ⟨_, _, rfl⟩
  -- The commands without a transaction.
  any_goals (rw [writeCount_answered]; exact .inr rfl)
  · exact .inl ⟨w, d, x, rfl⟩
  · exact .inr (transacts_freshRead data s).writes
  · exact .inr (transacts_pollStart .cmd s).writes

theorem writeCount_of_write_seen {s t : State} {r : Obs} {addr : Nat} {w : Byte} {st : PortStatus}
    (h : t.obs = r :: .portWrite addr w st :: s.obs) : writeCount s < writeCount t := by
  have hwrite : isWrite (.portWrite addr w st) = true := rfl
  simp only [writeCount, h, List.countP_cons, hwrite, if_true]
  omega

/-- Settles O33: a command that shows a write is a committing write, which sets CUR if its status is a success and not
otherwise. -/
theorem everyPortWriteUpdatesCur : Obligations.EveryPortWriteUpdatesCur := by
  intro i s t r addr w st h hobs
  rcases exec_writes_or_not h with ⟨w', d, x, rfl⟩ | hcount
  · obtain ⟨r', hobs'⟩ := writeShadow_obs (w := w') (d := d) (x := x) (s := s)
    rw [hobs'] at hobs
    simp only [List.cons.injEq, Obs.portWrite.injEq, and_true] at hobs
    obtain ⟨-, -, rfl, hst⟩ := hobs
    refine ⟨fun hsuccess => ?_, fun hfail => ?_⟩
    · rw [writeShadow_of_success (hst.trans hsuccess)]
    · rw [writeShadow_of_failure hst hfail, takeAnswer_cur]
  · exact absurd (writeCount_of_write_seen hobs) (by omega)

end Sys2Proof.Machine

/-! ## Family 41_edge_detector.md: Match and its derived views, the FireSet, and the fires of a poll under every interleaving -/

namespace Sys2Proof.Machine

/-! ### Match (R84) -/

section EdgeMatch

variable {pv cv : Bool}

theorem edgeMatch_low : edgeMatch .low pv cv = true ↔ cv = false := by simp [edgeMatch]

theorem edgeMatch_change : edgeMatch .change pv cv = true ↔ pv ≠ cv := bne_iff_ne

theorem edgeMatch_rising : edgeMatch .rising pv cv = true ↔ pv = false ∧ cv = true := by simp [edgeMatch]

theorem edgeMatch_falling : edgeMatch .falling pv cv = true ↔ pv = true ∧ cv = false := by simp [edgeMatch]

/-- R86: between two equal levels there is no edge, so LOW alone can match. -/
theorem edgeMatch_steady {m : IntMode} (hm : m ≠ .low) (b : Bool) : edgeMatch m b b = false := by
  cases m with
  | low => exact absurd rfl hm
  | change => exact bne_self_eq_false b
  | rising => exact Bool.not_and_self b
  | falling => exact Bool.and_not_self b

end EdgeMatch

/-- Settles O15: the four mode codes name the four modes. -/
theorem matchComparesTheTwoLevels : Obligations.MatchComparesTheTwoLevels := fun _ _ =>
  ⟨edgeMatch_low, edgeMatch_change, edgeMatch_rising, edgeMatch_falling⟩

/-! ### The derived views of Match (R87, R88) -/

/-- R87: the modes' codes number the bits of Detect. -/
theorem getLsbD_detect (m : IntMode) (pv cv : Bool) :
    (detect pv cv).getLsbD (modeBits m).toNat = edgeMatch m pv cv := by
  revert pv cv
  cases m <;> decide

/-- Settles O16: the bits of Detect one mode at a time, then the table's fixed rows. -/
theorem detectAndEdgeResultFollowMatch : Obligations.DetectAndEdgeResultFollowMatch :=
  ⟨getLsbD_detect, rfl, rfl, rfl, rfl, rfl, rfl, fun b => by cases b <;> rfl⟩

@[simp] theorem getBit_xor (a b : Byte) (q : Pin) : getBit (a ^^^ b) q = (getBit a q != getBit b q) := by
  simp [getBit]

@[simp] theorem getBit_matchVec (m : IntMode) (pv cv : Byte) (p : Pin) :
    getBit (matchVec m pv cv) p = edgeMatch m (getBit pv p) (getBit cv p) := by
  cases m with
  | low => exact getBit_not cv p
  | change => exact getBit_xor pv cv p
  | rising => simp [matchVec, edgeMatch]
  | falling => simp [matchVec, edgeMatch]

/-- Settles O17: each formula acts lane by lane, so each law is one about Match on the two levels of a lane. -/
theorem matchVecIsMatchOnEachLane : Obligations.MatchVecIsMatchOnEachLane := by
  have change_eq : ∀ a b, edgeMatch .change a b = (edgeMatch .rising a b || edgeMatch .falling a b) := by decide
  have rising_falling : ∀ a b, (edgeMatch .rising a b && edgeMatch .falling a b) = false := by decide
  have falling_low : ∀ a b, (edgeMatch .falling a b && !edgeMatch .low a b) = false := by decide
  refine ⟨getBit_matchVec, fun pv cv => ⟨?_, ?_, ?_⟩⟩
  · exact eq_of_getBit fun p => by simp [change_eq]
  · exact eq_of_getBit fun p => by simp [rising_falling]
  · exact eq_of_getBit fun p => by simp [falling_low]

/-! ### The FireSet (R88) -/

theorem laneFire_of_match {s : State} {p : Pin} {b : Binding} (hb : binding s p = some b)
    (hm : edgeMatch b.mode (getBit s.prev p) (getBit s.cur p) = true) : laneFire s p = some (p, b.handle) := by
  simp [laneFire, hb, hm]

theorem laneFire_of_noMatch {s : State} {p : Pin}
    (h : ∀ b, binding s p = some b → edgeMatch b.mode (getBit s.prev p) (getBit s.cur p) = false) :
    laneFire s p = none := by
  unfold laneFire
  cases hb : binding s p with
  | none => rfl
  | some b => simp [h b hb]

/-- A lane gives its own pin, with the handle of its matching binding, and nothing else. -/
theorem laneFire_eq_some {s : State} {p q : Pin} {k : Callback} :
    laneFire s q = some (p, k) ↔
      q = p ∧ ∃ m, binding s q = some ⟨m, k⟩ ∧ edgeMatch m (getBit s.prev q) (getBit s.cur q) = true := by
  refine ⟨fun h => ?_, ?_⟩
  · by_cases hmatch : ∃ b, binding s q = some b ∧ edgeMatch b.mode (getBit s.prev q) (getBit s.cur q) = true
    · obtain ⟨⟨m, k'⟩, hb, hm⟩ := hmatch
      rw [laneFire_of_match hb hm] at h
      cases h
      exact ⟨rfl, m, hb, hm⟩
    · rw [laneFire_of_noMatch (by simpa using hmatch)] at h
      cases h
  · rintro ⟨rfl, m, hb, hm⟩
    exact laneFire_of_match hb hm

theorem mem_fireSet {s : State} {p : Pin} {k : Callback} :
    (p, k) ∈ fireSet s ↔
      ∃ m, binding s p = some ⟨m, k⟩ ∧ edgeMatch m (getBit s.prev p) (getBit s.cur p) = true := by
  simp [fireSet_eq, laneFire_eq_some]

/-- The pins are visited in increasing order and each lane gives its own pin, so the list is in pin order. -/
theorem fireSet_pairwise (s : State) : (fireSet s).Pairwise fun a b => a.1 < b.1 := by
  rw [fireSet_eq, List.pairwise_filterMap]
  refine (List.pairwise_lt_finRange 8).imp fun {p q} hpq => ?_
  rintro ⟨_, _⟩ hp ⟨_, _⟩ hq
  rwa [← (laneFire_eq_some.mp hp).1, ← (laneFire_eq_some.mp hq).1]

/-- Settles O18: the members lane by lane, and the order in which the lanes are visited. -/
theorem fireSetIsTheMatchingPinsInOrder : Obligations.FireSetIsTheMatchingPinsInOrder := fun s =>
  ⟨fun _ _ => mem_fireSet, fireSet_pairwise s⟩

theorem mem_fireSet_of_bound {s : State} {p : Pin} {k : Callback} {m : IntMode} (hb : binding s p = some ⟨m, k⟩) :
    (p, k) ∈ fireSet s ↔ edgeMatch m (getBit s.prev p) (getBit s.cur p) = true := by
  simp [mem_fireSet, hb]

/-- Settles O19: a bound pin is in the FireSet iff its mode matches its own two levels; LOW reads the current one only, and no
other mode matches equal levels. -/
theorem lowIsLevelTriggeredAndTheOthersAreNot : Obligations.LowIsLevelTriggeredAndTheOthersAreNot := by
  intro s p h m hb
  refine ⟨?_, fun hm hsteady => ?_⟩
  · rintro rfl q
    exact (mem_fireSet_of_bound (s := { s with prev := q }) hb).trans edgeMatch_low
  · rw [mem_fireSet_of_bound hb, hsteady, edgeMatch_steady hm]
    exact Bool.false_ne_true

/-! ### The fires of a poll in progress, whatever the interleaving (R88, R94, R102) -/

/-- A lane reads BIND, PREV and CUR only. -/
theorem laneFire_congr {s u : State} (hcur : u.cur = s.cur) (hprev : u.prev = s.prev) (hbind : u.bind = s.bind)
    (p : Pin) : laneFire u p = laneFire s p := by
  simp only [laneFire, binding, hcur, hprev, hbind]

/-- R94, step (4): a DSTEP fires exactly what the lane of its pin gives to the FireSet. -/
theorem fires_examine (p : Pin) (s : State) : fires (examine p s) = (laneFire s p).toList ++ fires s := by
  have hcursor : fires { s with cursor := p.succ } = fires s := rfl
  rcases examine_cases p s with ⟨b, hb, hm, e⟩ | ⟨hno, e⟩ <;> rw [e]
  · rw [fires_enterHandler, hcursor, laneFire_of_match hb hm]
    rfl
  · rw [hcursor, laneFire_of_noMatch hno]
    rfl

/-- Going from `s` to `u` changes nothing of the poll in progress, its inputs and its fires, and lists no new action of a
callback. -/
structure KeepsPoll (s u : State) : Prop where
  acts : ∀ a ∈ u.env.callback, a ∈ s.env.callback
  busy : u.busy = s.busy
  cur : u.cur = s.cur
  prev : u.prev = s.prev
  bind : u.bind = s.bind
  cursor : u.cursor = s.cursor
  fires : fires u = fires s

theorem keepsPoll_takeChoice (s : State) : KeepsPoll s (takeChoice s) :=
  ⟨by simp, by simp, by simp, by simp, by simp, by simp, fires_of_obs (by simp)⟩

/-- R97: CB_DONE leaves the poll where it is. -/
theorem keepsPoll_callbackDone {s : State} {a : CallbackAct} {rest : List CallbackAct} (h : s.env.callback = a :: rest) :
    KeepsPoll s (callbackDone { s with env := { s.env with callback := rest } }) :=
  ⟨fun _ hb => h ▸ List.mem_cons_of_mem a hb, rfl, rfl, rfl, rfl, rfl, rfl⟩

/-- R99: a trigger during a poll is lost or deferred. -/
theorem keepsPoll_trigStep {s : State} (hbusy : s.busy = true) : KeepsPoll s (trigStep s) := by
  rcases trigStep_cases s with ⟨-, e⟩ | ⟨-, -, e⟩ | ⟨-, hidle, -, -⟩
  · rw [e]; exact ⟨fun _ => id, rfl, rfl, rfl, rfl, rfl, rfl⟩
  · rw [e]; exact ⟨fun _ => id, rfl, rfl, rfl, rfl, rfl, rfl⟩
  · simp [hbusy] at hidle

section DuringPoll

variable {s0 s u : State}

theorem duringPoll_of_keepsPoll (k : KeepsPoll s u) (h : duringPoll s0 s) : duringPoll s0 u := by
  obtain ⟨hacts, hbusy, hcur, hprev, hbind, hfires⟩ := h
  refine ⟨fun a ha => hacts a (k.acts a ha), k.busy.trans hbusy, k.cur.trans hcur, k.prev.trans hprev,
    k.bind.trans hbind, ?_⟩
  rw [k.fires, k.cursor, hfires]

/-- The pin CURSOR names adds its lane to the fires as it adds it to the part of the FireSet below CURSOR. -/
theorem duringPoll_examine {p : Pin} (hp : s.cursor = p.castSucc) (h : duringPoll s0 s) :
    duringPoll s0 (examine p s) := by
  obtain ⟨hacts, hbusy, hcur, hprev, hbind, hfires⟩ := h
  have hexamined : fires (examine p s) = (firesBelow (p.val + 1) s0).reverse ++ fires s0 := by
    calc fires (examine p s)
        = (laneFire s0 p).toList ++ fires s := by rw [fires_examine, laneFire_congr hcur hprev hbind]
      _ = (laneFire s0 p).toList ++ ((firesBelow p.val s0).reverse ++ fires s0) := by rw [hfires, hp]; rfl
      _ = (firesBelow (p.val + 1) s0).reverse ++ fires s0 := by
        rw [firesBelow_succ, List.reverse_append]
        cases laneFire s0 p <;> rfl
  rcases examine_cases p s with ⟨_, -, -, e⟩ | ⟨-, e⟩ <;> rw [e] at hexamined ⊢ <;>
    exact ⟨hacts, hbusy, hcur, hprev, hbind, hexamined⟩

/-- R94, step (5): the retirement fires nothing, and below CURSOR = 8 lies the whole FireSet. -/
theorem retire_of_duringPoll (h8 : s.cursor = 8) (h : duringPoll s0 s) :
    (retire s).busy = false ∧ fires (retire s) = (fireSet s0).reverse ++ fires s0 := by
  obtain ⟨-, -, -, -, -, hfires⟩ := h
  refine ⟨by simp [retire], ?_⟩
  calc fires (retire s) = fires s := fires_pollRespond _ _ _ _
    _ = (firesBelow 8 s0).reverse ++ fires s0 := by rw [hfires, h8]; rfl
    _ = (fireSet s0).reverse ++ fires s0 := by rw [firesBelow_eight]

theorem dstep_of_duringPoll (h : duringPoll s0 s) :
    duringPoll s0 (dstep s) ∨ ((dstep s).busy = false ∧ fires (dstep s) = (fireSet s0).reverse ++ fires s0) := by
  rcases dstep_cases s with ⟨p, hp, e⟩ | ⟨h8, e⟩ <;> rw [e]
  · exact .inl (duringPoll_examine hp h)
  · exact .inr (retire_of_duringPoll h8 h)

end DuringPoll

/-- Settles O58: case by case over what a step can do. While the poll is in progress MAIN and DEFER are held and no callback has a
command to issue, so the poll moves by DSTEPs alone. -/
theorem everyInterleavingFiresTheFireSet : Obligations.EveryInterleavingFiresTheFireSet := by
  intro s0 s t h hstep
  have ⟨hacts, hbusy, _⟩ := h
  have hchoice : duringPoll s0 (takeChoice s) := duringPoll_of_keepsPoll (keepsPoll_takeChoice s) h
  have hbusy' : (takeChoice s).busy = true := (takeChoice_busy s).trans hbusy
  rcases step_cases hstep with rfl | ⟨_, _, -, hidle, -⟩ | ⟨c, rest, hc, -⟩ | ⟨rest, hc, -, -, rfl⟩ |
    rfl | ⟨-, -, rfl⟩ | ⟨hidle, -⟩
  · exact .inl hchoice
  · simp [hbusy] at hidle
  · rw [takeChoice_env_callback] at hc
    cases hacts (.command c) (by simp [hc])
  · exact .inl (duringPoll_of_keepsPoll (keepsPoll_callbackDone hc) hchoice)
  · exact .inl (duringPoll_of_keepsPoll (keepsPoll_trigStep hbusy') hchoice)
  · exact dstep_of_duringPoll hchoice
  · simp [hbusy] at hidle

end Sys2Proof.Machine

/-! ## Family 42_interrupt_dispatch.md: the binding and gate commands, the engine's turns, CB_DONE and the trigger -/

namespace Sys2Proof.Machine

/-! ### The binding and gate commands (R89, R90, R100, R101) -/

/-- Settles O24: the range check, then the one entry of the table. -/
theorem attachAndDetachWriteOneBinding : Obligations.AttachAndDetachWriteOneBinding := by
  refine fun pin mode h s => ⟨fun hpin => ?_, fun p hp => ?_⟩
  · exact ⟨congrArg Host.Outcome.next (withPin_invalid hpin _ s), congrArg Host.Outcome.next (withPin_invalid hpin _ s)⟩
  · exact ⟨congrArg Host.Outcome.next (withPin_eq hp _ s), congrArg Host.Outcome.next (withPin_eq hp _ s)⟩

theorem exec_inten (en : Bool) (s : State) :
    exec (.inten en) s = .next { answered (issuer s) 0x000#11 s with ten := en } := rfl

theorem exec_ignore (s : State) : exec .ignore s = .next { answered (issuer s) 0x000#11 s with ign := true } := rfl

/-- Settles O26: each command writes its flag and answers 0x000. -/
theorem intenAndIgnoreWriteOneFlag : Obligations.IntenAndIgnoreWriteOneFlag := fun en s =>
  ⟨exec_inten en s, exec_ignore s⟩

/-! ### The start of a poll (R91) -/

section PollStart

variable {s : State} {b : Byte} {st : PortStatus}

theorem portRead_of_answer (h : portAnswer s = ⟨b, st⟩) :
    portRead s = { takeAnswer s with obs := .portRead Config.devAddr b st :: s.obs } := by
  simp [portRead, observe, h]

theorem pollStart_of_ign (o : Origin) (h : s.ign = true) :
    pollStart o s = pollRespond o .success pollIgnored { s with ign := false } := if_pos h

theorem pollStart_of_success (o : Origin) (hi : s.ign = false) (h : portAnswer s = ⟨b, .success⟩) :
    pollStart o s = { takeAnswer s with
      prev := s.cur, cur := b, busy := true, cursor := 0, wait := false, origin := o
      obs := .portRead Config.devAddr b .success :: s.obs } := by
  rcases pollStart_cases o s with ⟨hign, -⟩ | ⟨-, -, e⟩ | ⟨-, hst, -⟩
  · simp [hi] at hign
  · rw [e, portRead_of_answer h, h]
  · simp [h] at hst

theorem pollStart_of_failure (o : Origin) (hi : s.ign = false) (h : portAnswer s = ⟨b, st⟩) (hst : st ≠ .success) :
    pollStart o s = pollRespond o (codeOfStatus st) 0x00#8
      { takeAnswer s with obs := .portRead Config.devAddr b st :: s.obs } := by
  rcases pollStart_cases o s with ⟨hign, -⟩ | ⟨-, hs, -⟩ | ⟨-, -, e⟩
  · simp [hi] at hign
  · simp [h, hst] at hs
  · rw [e, portRead_of_answer h, h]

end PollStart

/-- Settles O25: by the issuer, and for MAIN by the three outcomes of a poll's start. -/
theorem pollStartsOrDefersOrIgnores : Obligations.PollStartsOrDefersOrIgnores := by
  refine fun s => ⟨fun hb => ?_, fun hb hi => ?_, fun b hb hi h => ?_, fun b st hb hi h hst => ?_⟩
  · rw [exec_poll_eq, if_pos hb]
    rfl
  all_goals rw [exec_poll_eq, if_neg (by simp [hb])]
  · rw [pollStart_of_ign _ hi]
    rfl
  · rw [pollStart_of_success _ hi h]
  · rw [pollStart_of_failure _ hi h hst, pollRespond_cmd, codeOfStatus_failure]
    rfl

/-- Settles O48: IGNORE leaves BUSY = 0 and IGN = 1, where a POLL is MAIN's and is ignored. -/
theorem ignoreSkipsTheNextPoll : Obligations.IgnoreSkipsTheNextPoll := by
  intro s hb
  refine ⟨_, exec_ignore s, ?_⟩
  have ⟨_, hignored, _⟩ := pollStartsOrDefersOrIgnores { answered (issuer s) 0x000#11 s with ign := true }
  rw [hignored hb rfl, issuer_of_not_busy hb]
  rfl

/-! ### The engine's turns, CB_DONE and the trigger (R94, R97, R98, R99) -/

section Engine

variable {s : State} {p : Pin}

theorem examine_of_match {b : Binding} (hb : binding s p = some b)
    (hm : edgeMatch b.mode (getBit s.prev p) (getBit s.cur p) = true) :
    examine p s = enterHandler p b.handle { s with cursor := p.succ } := by
  simp [examine, hb, hm]

theorem examine_of_noMatch
    (h : ∀ b, binding s p = some b → edgeMatch b.mode (getBit s.prev p) (getBit s.cur p) = false) :
    examine p s = { s with cursor := p.succ } := by
  rcases examine_cases p s with ⟨b, hb, hm, -⟩ | ⟨-, e⟩
  · simp [h b hb] at hm
  · exact e

theorem dstep_of_pin (h : s.cursor = p.castSucc) : dstep s = examine p s := by
  have hlt : s.cursor.val < 8 := by simp [h]
  have hpin : (⟨s.cursor.val, hlt⟩ : Pin) = p := Fin.ext (by simp [h])
  rw [dstep, dif_pos hlt, hpin]

theorem dstep_of_end (h : s.cursor = 8) : dstep s = retire s := by
  rw [dstep, dif_neg (by simp [h])]

theorem engineStep_of_dstep (hb : s.busy = true) (hw : s.wait = false) : engineStep s = dstep s := by
  simp [engineStep, dstepEnabled, hb, hw]

theorem engineStep_of_defer (hb : s.busy = false) (hp : s.pend = true) : engineStep s = deferStep s := by
  simp [engineStep, dstepEnabled, deferEnabled, hb, hp]

theorem callbackStep_of_done {acts : List CallbackAct} (hc : s.env.callback = .done :: acts) (hb : s.busy = true)
    (hw : s.wait = true) :
    callbackStep s = .next (callbackDone { s with env := { s.env with callback := acts } }) := by
  simp [callbackStep, callbackRunning, hc, hb, hw]

end Engine

/-- Settles O43: the two retirements by ORIGIN, and the pin CURSOR names with and without a match. -/
theorem dstepExaminesOnePinOrRetires : Obligations.DstepExaminesOnePinOrRetires := by
  rintro s u turns hs hb hw rfl
  have hstep : step s = .next (dstep { s with env := { s.env with sched := turns } }) :=
    (step_of_sched hs).trans (congrArg Host.Outcome.next (engineStep_of_dstep hb hw))
  refine ⟨fun hc ho => ?_, fun hc ho => ?_, fun p b hc hbound hm => ?_, fun p hc hno => ?_⟩ <;> rw [hstep]
  · rw [dstep_of_end, retire, ho]
    · rfl
    · exact hc
  · rw [dstep_of_end, retire, ho]
    · rfl
    · exact hc
  · rw [dstep_of_pin (p := p), examine_of_match (b := b)]
    · rfl
    all_goals assumption
  · rw [dstep_of_pin (p := p), examine_of_noMatch] <;> assumption

/-- Settles O44: the turn is the callback's, whose next action is its end. -/
theorem callbackDoneClearsWaitOnly : Obligations.CallbackDoneClearsWaitOnly := fun _ _ _ hs hc hb hw =>
  (step_of_sched hs).trans (callbackStep_of_done hc hb hw)

/-- Settles O45: the engine's turn is DEFER, and the poll it starts has three outcomes. -/
theorem deferStartsThePendingPoll : Obligations.DeferStartsThePendingPoll := by
  rintro s u turns hs hb hp hu
  have hstep : step s = .next (pollStart .auto u) := by
    rw [step_of_sched hs, hu]
    exact congrArg Host.Outcome.next (engineStep_of_defer hb hp)
  rw [hstep]
  subst hu
  refine ⟨fun hi => ?_, fun b hi h => ?_, fun b st hi h hst => ?_⟩
  · rw [pollStart_of_ign, pollRespond_auto]
    exact hi
  · rw [pollStart_of_success] <;> assumption
  · rw [pollStart_of_failure, pollRespond_auto] <;> assumption

theorem trigStep_of_disabled {s : State} (h : s.ten = false) : trigStep s = s := by simp [trigStep, h]

theorem trigStep_of_deferred {s : State} (ht : s.ten = true) (h : s.busy = true ∨ s.pend = true) :
    trigStep s = { s with pend := true } := by simp [trigStep, ht, h]

theorem trigStep_of_idle {s : State} (ht : s.ten = true) (hb : s.busy = false) (hp : s.pend = false) :
    trigStep s = pollStart .auto s := by simp [trigStep, ht, hb, hp]

/-- Settles O46: lost, deferred, or a poll's start with its three outcomes. -/
theorem triggerIsLostDeferredOrStartsAPoll : Obligations.TriggerIsLostDeferredOrStartsAPoll := by
  rintro s u turns hs hu
  have hstep : step s = .next (trigStep u) := by rw [step_of_sched hs, hu]; rfl
  rw [hstep]
  subst hu
  refine ⟨fun ht => ?_, fun ht h => ?_, fun ht hb hp hi => ?_, fun b ht hb hp hi h => ?_,
    fun b st ht hb hp hi h hst => ?_⟩
  · rw [trigStep_of_disabled]
    exact ht
  · rw [trigStep_of_deferred] <;> assumption
  · rw [trigStep_of_idle, pollStart_of_ign, pollRespond_auto] <;> assumption
  · rw [trigStep_of_idle, pollStart_of_success (b := b)] <;> assumption
  · rw [trigStep_of_idle, pollStart_of_failure (b := b) (st := st), pollRespond_auto] <;> assumption

/-- Settles O47, by induction on the number of triggers: the first one sets PEND, and from there each sets it again. -/
theorem triggersCoalesceIntoOnePendingPoll : Obligations.TriggersCoalesceIntoOnePendingPoll := by
  intro n
  induction n with
  | zero =>
    intro s turns hs ht h
    have ⟨_, hdeferred, _⟩ := triggerIsLostDeferredOrStartsAPoll s _ turns hs rfl
    exact run_succ_of_step 0 (hdeferred ht h)
  | succ n ih =>
    intro s turns hs ht h
    have ⟨_, hdeferred, _⟩ := triggerIsLostDeferredOrStartsAPoll s _ (List.replicate (n + 1) Agent.trig ++ turns) hs rfl
    rw [run_succ_of_step (n + 1) (hdeferred ht h)]
    exact ih _ turns rfl ht (.inr rfl)

end Sys2Proof.Machine

/-! ## Family 42_interrupt_dispatch.md, continued: what a step can fire, and a callback that never ends -/

namespace Sys2Proof.Machine

/-! ### What fires (R94, R102) -/

theorem fires_pollStart (o : Origin) (s : State) : fires (pollStart o s) = fires s := by
  rcases pollStart_cases o s with ⟨-, e⟩ | ⟨-, -, e⟩ | ⟨-, -, e⟩ <;> rw [e]
  · exact fires_pollRespond _ _ _ _
  · exact fires_portRead s
  · rw [fires_pollRespond, fires_portRead]

theorem fires_writeShadow (w d x : Byte) (s : State) : fires (writeShadow w d x s) = fires s := by
  rcases writeShadow_cases w d x s with ⟨-, e⟩ | ⟨-, e⟩ <;> rw [e, fires_answered]
  · exact fires_portWrite s w
  · exact fires_portWrite s w

theorem fires_freshRead (data : Byte → Byte) (s : State) : fires (freshRead data s) = fires s := by
  rcases freshRead_cases data s with ⟨-, e⟩ | ⟨-, e⟩ <;> rw [e, fires_answered]
  · exact fires_portRead s
  · exact fires_portRead s

/-- No command fires. -/
theorem fires_exec {i : Instr} {s t : State} (h : exec i s = .next t) : fires t = fires s := by
  rcases exec_cases h with ⟨_, _, _, rfl⟩ | ⟨_, _, rfl⟩ | ⟨_, _, _, rfl⟩ | ⟨_, _, rfl⟩ | ⟨_, _, _, rfl⟩ |
    ⟨_, _, rfl⟩ | ⟨_, rfl⟩ | ⟨w, d, x, _, rfl⟩ | ⟨data, _, rfl⟩ | ⟨_, _, rfl⟩ | ⟨_, _, rfl⟩
  -- The commands without a transaction add a response to what is seen, and nothing else.
  any_goals exact fires_answered _ _ _
  · exact fires_writeShadow w d x s
  · exact fires_freshRead data s
  · exact fires_pollStart .cmd s

theorem fires_runCommand {c : Command} {s t : State} (h : runCommand c s = .next t) : fires t = fires s := by
  rcases runCommand_cases h with ⟨i, -, hi⟩ | ⟨-, rfl⟩
  · exact fires_exec hi
  · exact fires_answered _ _ _

theorem fires_trigStep (s : State) : fires (trigStep s) = fires s := by
  rcases trigStep_cases s with ⟨-, e⟩ | ⟨-, -, e⟩ | ⟨-, -, -, e⟩ <;> rw [e]
  · rfl
  · exact fires_pollStart .auto s

/-- R92, R93: a command of a callback leaves the poll in progress where it is. -/
theorem runCommand_keepsScan {c : Command} {s t : State} (h : runCommand c s = .next t) (hb : s.busy = true) :
    KeepsScan s t := by
  rcases runCommand_cases h with ⟨i, -, hi⟩ | ⟨-, rfl⟩
  · rcases exec_keepsScan hi with hkept | ⟨-, hidle, -⟩
    · exact hkept
    · simp [hb] at hidle
  · exact keepsScan_of_arch rfl

/-- What one step can do to the fires seen, and to CURSOR within a poll. -/
inductive FireMove (s t : State) : Prop where
  | silent (fires : fires t = fires s) (cursor : s.busy = true → t.busy = true → s.cursor ≤ t.cursor)
  /-- R94, step (4), with a match. -/
  | fired (p : Pin) (b : Binding) (bound : binding s p = some b) (fires : fires t = (p, b.handle) :: fires s)
      (busy : s.busy = true) (running : s.wait = false) (cursor : s.cursor = p.castSucc) (passed : t.cursor = p.succ)
      (wait : t.wait = true)

/-- A step that finds no poll in progress has no CURSOR to move. -/
theorem fireMove_of_not_busy {s t : State} (hb : s.busy = false) (h : fires t = fires s) : FireMove s t :=
  .silent h fun hbusy => by simp [hb] at hbusy

theorem fireMove_of_cursor {s t : State} (h : fires t = fires s) (hc : t.cursor = s.cursor) : FireMove s t :=
  .silent h fun _ _ => hc.ge

/-- A move reads the twelve items and the fires only, so a change of the rest may come before it. -/
theorem fireMove_of_arch {s u t : State} (m : FireMove u t) (h : arch u = arch s) (hf : fires u = fires s) :
    FireMove s t := by
  have hbusy : u.busy = s.busy := congrArg Arch.busy h
  have hcursor : u.cursor = s.cursor := congrArg Arch.cursor h
  have hwait : u.wait = s.wait := congrArg Arch.wait h
  have hbind : u.bind = s.bind := congrArg Arch.bind h
  cases m with
  | silent fires cursor => exact .silent (fires.trans hf) (hbusy ▸ hcursor ▸ cursor)
  | fired p b bound fires busy running cursor passed wait =>
    refine .fired p b ?_ (hf ▸ fires) (hbusy ▸ busy) (hwait ▸ running) (hcursor ▸ cursor) passed wait
    rw [← bound, binding, binding, hbind]

theorem trigStep_fireMove (s : State) : FireMove s (trigStep s) :=
  .silent (fires_trigStep s) fun hb _ => (keepsPoll_trigStep hb).cursor.ge

theorem dstep_fireMove {s : State} (hb : s.busy = true) (hw : s.wait = false) : FireMove s (dstep s) := by
  rcases dstep_cases s with ⟨p, hp, e⟩ | ⟨-, e⟩ <;> rw [e]
  · rcases examine_cases p s with ⟨b, hbound, -, e⟩ | ⟨-, e⟩ <;> rw [e]
    · exact .fired p b hbound (fires_enterHandler _ _ _) hb hw hp rfl rfl
    · exact .silent rfl fun _ _ => hp ▸ (Fin.castSucc_lt_succ (i := p)).le
  · exact .silent (fires_pollRespond _ _ _ _) fun _ hbusy => by simp [retire] at hbusy

/-- Every step makes one of the two moves, and only a DSTEP can make the second. -/
theorem step_fireMove {s t : State} (h : step s = .next t) : FireMove s t := by
  have hbusy : (takeChoice s).busy = s.busy := takeChoice_busy s
  suffices m : FireMove (takeChoice s) t from
    fireMove_of_arch m (arch_takeChoice s) (keepsPoll_takeChoice s).fires
  rcases step_cases h with rfl | ⟨c, rest, -, hb, -, hrun⟩ | ⟨c, rest, -, hb, -, hrun⟩ | ⟨rest, -, -, -, rfl⟩ |
    rfl | ⟨hb, hw, rfl⟩ | ⟨hb, -, rfl⟩
  · exact fireMove_of_cursor rfl rfl
  · exact fireMove_of_not_busy (hbusy.trans hb) (fires_runCommand hrun :)
  · have hscan := runCommand_keepsScan hrun (hbusy.trans hb)
    exact fireMove_of_cursor (fires_runCommand hrun :) hscan.cursor
  · exact fireMove_of_cursor rfl rfl
  · exact trigStep_fireMove _
  · exact dstep_fireMove (hbusy.trans hb) ((takeChoice_wait s).trans hw)
  · exact fireMove_of_not_busy (hbusy.trans hb) (fires_pollStart .auto _)

/-- Settles O56, by the two moves: a fire is a DSTEP's, at the pin its CURSOR names, which is then passed. -/
theorem fireIsAtTheCursorWhichAdvances : Obligations.FireIsAtTheCursorWhichAdvances := by
  intro s t h
  cases step_fireMove h with
  | silent fires cursor => exact ⟨.inl fires, cursor⟩
  | fired p b bound fires busy running cursor passed wait =>
    refine ⟨.inr ⟨p, b.handle, fires, busy, running, cursor, passed, wait⟩, fun _ _ => ?_⟩
    rw [cursor, passed]
    exact (Fin.castSucc_lt_succ (i := p)).le

/-- Settles O57: the pin a step fires is bound, so it is another one. -/
theorem absentBindingNeverFires : Obligations.AbsentBindingNeverFires := by
  intro s t p habsent h
  cases step_fireMove h with
  | silent fires _ => rw [fires]
  | fired q b bound fires =>
    have hq : q ≠ p := by
      rintro rfl
      simp [habsent] at bound
    rw [fires, List.countP_cons_of_neg (by simpa using hq)]

/-! ### A callback that never ends (R103) -/

/-- R110: every step of every agent answers a next state. -/
theorem step_next (s : State) : ∃ t, step s = .next t := by
  unfold step
  generalize takeChoice s = u
  cases chosenAgent s with
  | main =>
    rcases mainStep_cases u with e | ⟨c, rest, -, -, -, e⟩ <;> simp only [agentStep, e]
    · exact ⟨u, rfl⟩
    · exact runCommand_next _ _
  | trig => exact ⟨_, rfl⟩
  | callback =>
    rcases callbackStep_cases u with e | ⟨c, rest, -, -, -, e⟩ | ⟨rest, -, -, -, e⟩ <;> simp only [agentStep, e]
    · exact ⟨u, rfl⟩
    · exact runCommand_next _ _
    · exact ⟨_, rfl⟩
  | engine => exact ⟨_, rfl⟩

/-- `t` is in the hang that `s0` is in: a callback is still running and has only commands left to issue, and neither the
poll nor MAIN has moved since `s0`. -/
structure Hangs (s0 t : State) : Prop where
  busy : t.busy = true
  wait : t.wait = true
  acts : ∀ a ∈ t.env.callback, isCommand a = true
  cursor : t.cursor = s0.cursor
  prev : t.prev = s0.prev
  fires : fires t = fires s0
  main : t.env.main = s0.env.main
  answers : responseCount .main t = responseCount .main s0

section Hangs

variable {s0 s t : State}

theorem hangs_takeChoice (h : Hangs s0 s) : Hangs s0 (takeChoice s) where
  busy := (takeChoice_busy s).trans h.busy
  wait := (takeChoice_wait s).trans h.wait
  acts := (takeChoice_env_callback s).symm ▸ h.acts
  cursor := (takeChoice_cursor s).trans h.cursor
  prev := (takeChoice_prev s).trans h.prev
  fires := (keepsPoll_takeChoice s).fires.trans h.fires
  main := (takeChoice_env_main s).trans h.main
  answers := ((keepsAccounts_takeChoice s).responses .main).trans h.answers

theorem hangs_takeAct {a : CallbackAct} {rest : List CallbackAct} (hc : s.env.callback = a :: rest) (h : Hangs s0 s) :
    Hangs s0 { s with env := { s.env with callback := rest } } :=
  ⟨h.busy, h.wait, fun b hb => h.acts b (hc ▸ List.mem_cons_of_mem a hb), h.cursor, h.prev, h.fires, h.main, h.answers⟩

/-- R96: whatever command the callback issues, the answer is the callback's and the poll stays where it is. -/
theorem hangs_runCommand {c : Command} (h : Hangs s0 s) (hrun : runCommand c s = .next t) : Hangs s0 t := by
  have hscan := runCommand_keepsScan hrun h.busy
  have hfires := fires_runCommand hrun
  rcases runCommand_answers hrun with ⟨r, u, rfl, hu⟩ | ⟨hidle, -⟩
  · have hanswers : responseCount .main (answered (issuer s) r u) = responseCount .main s := by
      rw [responseCount_answered, issuer_of_busy h.busy, if_neg (by decide)]
      exact hu.responses .main
    exact ⟨hscan.busy.trans h.busy, hscan.wait.trans h.wait, fun a ha => h.acts a (hu.callback ▸ ha),
      hscan.cursor.trans h.cursor, hscan.prev.trans h.prev, hfires.trans h.fires, hu.main.trans h.main,
      hanswers.trans h.answers⟩
  · simp [h.busy] at hidle

/-- R99: a trigger is lost or deferred. -/
theorem hangs_trigStep (h : Hangs s0 s) : Hangs s0 (trigStep s) := by
  rcases trigStep_cases s with ⟨-, e⟩ | ⟨-, -, e⟩ | ⟨-, hidle, -⟩
  · rwa [e]
  · rw [e]
    exact ⟨h.busy, h.wait, h.acts, h.cursor, h.prev, h.fires, h.main, h.answers⟩
  · simp [h.busy] at hidle

/-- R103: MAIN, DSTEP and DEFER are not enabled and no CB_DONE is left, so only triggers and the callback's commands move. -/
theorem hangs_step (h : Hangs s0 s) (hstep : step s = .next t) : Hangs s0 t := by
  have hu : Hangs s0 (takeChoice s) := hangs_takeChoice h
  rcases step_cases hstep with rfl | ⟨_, _, -, hidle, -⟩ | ⟨c, rest, hc, -, -, hrun⟩ | ⟨rest, hc, -⟩ |
    rfl | ⟨-, hended, -⟩ | ⟨hidle, -⟩
  · exact hu
  · simp [h.busy] at hidle
  · exact hangs_runCommand (hangs_takeAct hc hu) hrun
  · cases hu.acts .done (hc ▸ List.mem_cons_self)
  · exact hangs_trigStep hu
  · simp [h.wait] at hended
  · simp [h.busy] at hidle

theorem hangs_run (n : Nat) (h : Hangs s0 s) : ∃ t, Host.Core.run Sys2Proof.core n s = .next t ∧ Hangs s0 t := by
  induction n generalizing s with
  | zero => exact ⟨s, run_zero s, h⟩
  | succ n ih =>
    obtain ⟨u, hu⟩ := step_next s
    rw [run_succ_of_step n hu]
    exact ih (hangs_step h hu)

end Hangs

/-- Settles O60: the start of the hang is in it, and every step keeps it. -/
theorem callbackThatNeverEndsHangsTheBlock : Obligations.CallbackThatNeverEndsHangsTheBlock := by
  intro n s hb hw hacts
  obtain ⟨t, hrun, h⟩ := hangs_run n (Hangs.mk hb hw hacts rfl rfl rfl rfl rfl : Hangs s s)
  exact ⟨t, hrun, h.busy, h.wait, h.cursor, h.prev, h.fires, h.main, h.answers⟩

end Sys2Proof.Machine

/-! ## Family 42_interrupt_dispatch.md, continued: a whole poll -/

namespace Sys2Proof.Machine

/-! ### A poll of MAIN from its start to its retirement (R92, R94, R102) -/

/-- A run goes on from where its first steps end. -/
theorem run_add {m : Nat} (n : Nat) {s t : State} (h : Host.Core.run Sys2Proof.core m s = .next t) :
    Host.Core.run Sys2Proof.core (m + n) s = Host.Core.run Sys2Proof.core n t := by
  induction m generalizing s with
  | zero =>
    cases h
    rw [Nat.zero_add]
  | succ m ih =>
    obtain ⟨u, hu⟩ := step_next s
    rw [run_succ_of_step m hu] at h
    rw [Nat.add_right_comm, run_succ_of_step (m + n) hu, ih h]

/-- The turns of the first k pins of a poll: for each a DSTEP, then one for the callback it may fire. -/
def pinTurns (k : Nat) : List Agent := (List.replicate k [Agent.engine, Agent.callback]).flatten

theorem pollTurns_eq : pollTurns = .main :: (pinTurns 8 ++ [.engine]) := rfl

theorem pinTurns_succ (k : Nat) : pinTurns (k + 1) = pinTurns k ++ [.engine, .callback] := by
  simp [pinTurns, List.replicate_succ']

/-- The state of the poll begun at `s0` once the pins below k have been examined and their callbacks have ended: their
part of the FireSet has been seen to fire, and CURSOR is k. -/
def scanAt (s0 : State) (k : Fin 9) (turns : List Agent) (acts : List CallbackAct) : State :=
  { s0 with
    cursor := k
    env := { s0.env with sched := turns, callback := acts }
    obs := ((firesBelow k.val s0).map fun f => Obs.fire f.1 f.2).reverse ++ s0.obs }

section Scan

variable {s0 : State} {p : Pin} (turns : List Agent) (acts : List CallbackAct)

theorem scanAt_zero : scanAt s0 0 turns acts =
    { s0 with cursor := 0, env := { s0.env with sched := turns, callback := acts } } := by
  simp [scanAt, firesBelow_zero]

theorem scanAt_eight : scanAt s0 8 turns acts =
    { s0 with
      cursor := 8
      env := { s0.env with sched := turns, callback := acts }
      obs := ((fireSet s0).map fun f => Obs.fire f.1 f.2).reverse ++ s0.obs } := by
  rw [← firesBelow_eight]
  rfl

theorem scanAt_succ (k : Pin) : scanAt s0 k.succ turns acts =
    { scanAt s0 k.castSucc turns acts with
      cursor := k.succ
      obs := ((laneFire s0 k).toList.map fun f => Obs.fire f.1 f.2).reverse ++ (scanAt s0 k.castSucc turns acts).obs } := by
  simp [scanAt, firesBelow_succ]

/-- R94: a DSTEP on a matching pin fires it, and its callback runs. -/
theorem step_scanAt_of_match (hb : s0.busy = true) (hw : s0.wait = false) {b : Binding} (hbound : binding s0 p = some b)
    (hm : edgeMatch b.mode (getBit s0.prev p) (getBit s0.cur p) = true) :
    step (scanAt s0 p.castSucc (.engine :: turns) acts) = .next { scanAt s0 p.succ turns acts with wait := true } := by
  have ⟨_, _, hfire, _⟩ := dstepExaminesOnePinOrRetires (scanAt s0 p.castSucc (.engine :: turns) acts) _ _ rfl hb hw rfl
  rw [hfire p b rfl hbound hm, scanAt_succ, laneFire_of_match hbound hm]
  rfl

/-- R94: a DSTEP on another pin only advances CURSOR. -/
theorem step_scanAt_of_noMatch (hb : s0.busy = true) (hw : s0.wait = false)
    (hno : ∀ b, binding s0 p = some b → edgeMatch b.mode (getBit s0.prev p) (getBit s0.cur p) = false) :
    step (scanAt s0 p.castSucc (.engine :: turns) acts) = .next (scanAt s0 p.succ turns acts) := by
  have ⟨_, _, _, hpass⟩ := dstepExaminesOnePinOrRetires (scanAt s0 p.castSucc (.engine :: turns) acts) _ _ rfl hb hw rfl
  rw [hpass p rfl hno, scanAt_succ, laneFire_of_noMatch hno]
  rfl

/-- R97: the fired callback ends. -/
theorem step_scanAt_of_done (hb : s0.busy = true) (hw : s0.wait = false) (k : Fin 9) :
    step { scanAt s0 k (.callback :: turns) (.done :: acts) with wait := true } = .next (scanAt s0 k turns acts) := by
  have hwait : scanAt s0 k turns acts = { scanAt s0 k turns acts with wait := false } := by simp [scanAt, hw]
  rw [hwait]
  exact callbackDoneClearsWaitOnly { scanAt s0 k (.callback :: turns) (.done :: acts) with wait := true } turns acts
    rfl rfl hb rfl

/-- A callback's turn passes while none is running. -/
theorem step_scanAt_of_callback (hw : s0.wait = false) (k : Fin 9) :
    step (scanAt s0 k (.callback :: turns) acts) = .next (scanAt s0 k turns acts) :=
  agentsHoldWhileNothingIsEnabled (scanAt s0 k (.callback :: turns) acts) turns (.inr (.inl ⟨rfl, .inr hw⟩))

/-- The two turns of a pin, with the end of the callback listed exactly if the pin fires. -/
theorem run_pin (hb : s0.busy = true) (hw : s0.wait = false) (p : Pin) :
    Host.Core.run Sys2Proof.core 2 (scanAt s0 p.castSucc (.engine :: .callback :: turns)
      (List.replicate (laneFire s0 p).toList.length .done ++ acts)) = .next (scanAt s0 p.succ turns acts) := by
  by_cases hmatch : ∃ b, binding s0 p = some b ∧ edgeMatch b.mode (getBit s0.prev p) (getBit s0.cur p) = true
  · obtain ⟨b, hbound, hm⟩ := hmatch
    rw [run_succ_of_step 1 (step_scanAt_of_match _ _ hb hw hbound hm), laneFire_of_match hbound hm]
    exact run_succ_of_step 0 (step_scanAt_of_done turns acts hb hw p.succ)
  · have hno : ∀ b, binding s0 p = some b → edgeMatch b.mode (getBit s0.prev p) (getBit s0.cur p) = false := by
      simpa using hmatch
    rw [run_succ_of_step 1 (step_scanAt_of_noMatch _ _ hb hw hno), laneFire_of_noMatch hno]
    exact run_succ_of_step 0 (step_scanAt_of_callback turns acts hw p.succ)

/-- The turns of the first k pins, by induction on k. -/
theorem run_pins (hb : s0.busy = true) (hw : s0.wait = false) (k : Nat) (hk : k < 9) :
    Host.Core.run Sys2Proof.core (2 * k) (scanAt s0 0 (pinTurns k ++ turns)
      (List.replicate (firesBelow k s0).length .done ++ acts)) = .next (scanAt s0 ⟨k, hk⟩ turns acts) := by
  induction k generalizing turns acts with
  | zero =>
    rw [firesBelow_zero]
    rfl
  | succ k ih =>
    have hpin : k < 8 := by omega
    rw [pinTurns_succ, firesBelow_succ s0 ⟨k, hpin⟩, List.length_append, ← List.replicate_append_replicate,
      List.append_assoc, List.append_assoc, Nat.mul_succ, run_add 2 (ih _ _ (by omega))]
    exact run_pin turns acts hb hw ⟨k, hpin⟩

end Scan

/-- R91: `s` just after MAIN's POLL, with the byte read and what is left of MAIN's commands and of the port's answers. -/
def pollStarted (s : State) (b : Byte) (cmds : List Command) (answers : List PortAnswer) : State :=
  { s with
    prev := s.cur, cur := b, busy := true, cursor := 0, wait := false, origin := .cmd
    env := { s.env with main := cmds, port := answers }
    obs := .portRead Config.devAddr b .success :: s.obs }

theorem fireSet_pollStarted (s : State) (b : Byte) (cmds : List Command) (answers : List PortAnswer) :
    fireSet (pollStarted s b cmds answers) = fireSet { s with prev := s.cur, cur := b } := rfl

/-- R92: MAIN's turn on an idle block runs its POLL, whose read succeeds, and no pin has been examined yet. -/
theorem step_of_poll {s : State} {h : Callback} {b : Byte} {cmds : List Command} {answers : List PortAnswer}
    {turns : List Agent} (hidle : idle s) (hi : s.ign = false) (hs : s.env.sched = .main :: turns)
    (hm : s.env.main = ⟨0x9000#16, h⟩ :: cmds) (hport : s.env.port = ⟨b, .success⟩ :: answers) :
    step s = .next (scanAt (pollStarted s b cmds answers) 0 turns s.env.callback) := by
  obtain ⟨hb, -, -, -, hp⟩ := hidle
  have ⟨_, _, hpoll, _⟩ := pollStartsOrDefersOrIgnores { s with env := { s.env with main := cmds, sched := turns } }
  rw [step_of_mainAccepted hs hm hb hp, runCommand_of_ok (i := .poll) rfl, hpoll b hb hi (portAnswer_of_listed hport),
    takeAnswer_of_listed (rest := answers), scanAt_zero]
  · rfl
  · exact hport

/-- R94, step (5): the ninth DSTEP answers MAIN and leaves the block idle again, with the FireSet seen to fire. -/
theorem step_of_retirement {s : State} (b : Byte) (cmds : List Command) (answers : List PortAnswer) (turns : List Agent)
    (acts : List CallbackAct) (hidle : idle s) :
    step (scanAt (pollStarted s b cmds answers) 8 (.engine :: turns) acts) = .next { s with
      prev := s.cur, cur := b
      env := { s.env with main := cmds, callback := acts, port := answers, sched := turns }
      obs := .response .main 0x000#11 ::
        (((fireSet { s with prev := s.cur, cur := b }).map fun f => Obs.fire f.1 f.2).reverse ++
          (.portRead Config.devAddr b .success :: s.obs)) } := by
  obtain ⟨hb, hc, hw, ho, -⟩ := hidle
  have ⟨hretire, _⟩ := dstepExaminesOnePinOrRetires
    (scanAt (pollStarted s b cmds answers) 8 (.engine :: turns) acts) _ _ rfl rfl rfl rfl
  rw [hretire rfl rfl, scanAt_eight, fireSet_pollStarted]
  simp [answered, pollStarted, hb, hc, hw, ho]

/-- Settles O59: MAIN's turn, the sixteen turns of the pins, and the retirement, one after the other. -/
theorem pollRunsToItsRetirement : Obligations.PollRunsToItsRetirement := by
  rintro s h b cmds acts answers turns _ hidle hi rfl hs hm hcb hport
  have hturns : pollTurns ++ turns = .main :: (pinTurns 8 ++ .engine :: turns) := by simp [pollTurns_eq]
  have hpins := run_pins (s0 := pollStarted s b cmds answers) (.engine :: turns) acts rfl rfl 8 (by decide)
  rw [firesBelow_eight, fireSet_pollStarted] at hpins
  rw [run_succ_of_step 17 (step_of_poll hidle hi (hs.trans hturns) hm hport), hcb, run_add 1 hpins]
  exact run_succ_of_step 0 (step_of_retirement b cmds answers turns acts hidle)

end Sys2Proof.Machine

/-! ## Family 43_driver_facade.md: PINMODE as SETDIR, TOGGLE as SETOUT, and the fresh reads -/

namespace Sys2Proof.Machine

/-! ### TOGGLE is SETOUT of the inverted INTENT bit (R107) -/

section Toggle

variable {pin : BitVec 4} {p : Pin} {s : State}

theorem exec_toggle_eq_setout (h : pin.toNat = p.val) :
    exec (.toggle pin) s = exec (.setout pin (!getBit s.intent p)) s := by
  rw [exec_setout h, ← setOutBit_eq]
  exact congrArg Host.Outcome.next (withPin_eq h (fun p t => setOutBit p (!getBit t.intent p) t) s)

theorem toggle_of_success (h : pin.toNat = p.val) (hs : (portAnswer s).status = .success) :
    ∃ t, exec (.toggle pin) s = .next t ∧ t.intent = putBit s.intent p (!getBit s.intent p) ∧ t.dir = s.dir := by
  rw [exec_toggle_eq_setout h, exec_setout h, writeShadow_of_success hs]
  exact ⟨_, rfl, rfl, rfl⟩

end Toggle

theorem putBit_putBit (m : Byte) (p : Pin) (v w : Bool) : putBit (putBit m p v) p w = putBit m p w := by
  refine eq_of_getBit fun q => ?_
  simp only [getBit_putBit]
  split <;> rfl

theorem putBit_getBit (m : Byte) (p : Pin) : putBit m p (getBit m p) = m := by
  refine eq_of_getBit fun q => ?_
  rw [getBit_putBit]
  split
  · rw [‹q = p›]
  · rfl

/-- Inverting one bit twice is nothing. -/
theorem putBit_not_twice (m : Byte) (p : Pin) :
    putBit (putBit m p (!getBit m p)) p (!getBit (putBit m p (!getBit m p)) p) = m := by
  rw [getBit_putBit, if_pos rfl, Bool.not_not, putBit_putBit, putBit_getBit]

/-- Settles O32: each success inverts the one INTENT bit and keeps DIR. -/
theorem twoTogglesRestoreIntent : Obligations.TwoTogglesRestoreIntent := by
  intro pin s t hpin hs ht hst
  obtain ⟨p, hp⟩ : ∃ p : Pin, pin.toNat = p.val := ⟨⟨_, hpin⟩, rfl⟩
  obtain ⟨t', ht', hintent, hdir⟩ := toggle_of_success hp hs
  obtain rfl : t' = t := by simpa [ht'] using ht
  obtain ⟨u, hu, huintent, hudir⟩ := toggle_of_success hp hst
  refine ⟨u, hu, ?_, hudir.trans hdir⟩
  rw [huintent, hintent, putBit_not_twice]

/-- Settles O28: the word's round trip, the range check, and SETOUT's two outcomes at the inverted bit. -/
theorem toggleInvertsTheIntentBit : Obligations.ToggleInvertsTheIntentBit := by
  refine fun pin s => ⟨fun h => decodeOfEncodeIsTheCommand (.toggle pin) h rfl,
    fun hpin => congrArg Host.Outcome.next (withPin_invalid hpin _ s), fun p x w hp hx hw => ?_⟩
  rw [exec_toggle_eq_setout hp]
  have ⟨_, _, hsetout⟩ := setoutWritesTheMergedByte pin (!getBit s.intent p) s
  exact hsetout p x w hp hx hw

/-! ### PINMODE is SETDIR without apply (R106) -/

theorem exec_pinmode_eq_setdir {pm : PinMode} (hpm : pm ≠ .reserved) (pin : BitVec 4) (s : State) :
    exec (.pinmode pin pm) s = exec (.setdir pin (decide (pm = .output)) false) s := by
  cases pm with
  | reserved => exact absurd rfl hpm
  | input => rfl
  | output => rfl
  | inputPullup => rfl

/-- R59, R63: PM = 3 is the reserved mode. -/
theorem decode_pinmode_three (pin : BitVec 4) (h : Callback) :
    decode (commandWord 0xC#4 pin 0x03#8) h = .error .pinMode := by
  simp [decode]

theorem illegalWord_pinmode_three (pin : BitVec 4) : illegalWord (commandWord 0xC#4 pin 0x03#8) :=
  (decode_error_iff _ tableHandle).1 ⟨.pinMode, decode_pinmode_three pin tableHandle⟩

/-- Settles O27: the round trip of the three legal words, the refusal of the fourth, and SETDIR without apply. -/
theorem pinmodeRecordsTheDirection : Obligations.PinmodeRecordsTheDirection := by
  refine ⟨fun pin h s => ⟨decodeOfEncodeIsTheCommand (.pinmode pin .input) h rfl,
    decodeOfEncodeIsTheCommand (.pinmode pin .output) h rfl,
    decodeOfEncodeIsTheCommand (.pinmode pin .inputPullup) h rfl, ?_⟩, fun pin pm s hpm => ?_⟩
  · exact runCommand_of_illegal (c := ⟨_, h⟩) (illegalWord_pinmode_three pin) s
  · rw [exec_pinmode_eq_setdir hpm]
    have ⟨_, hinvalid, hvalid⟩ := setdirSetsOneDirectionBit pin (decide (pm = .output)) false s
    exact ⟨hinvalid, fun p hp => (hvalid p _ _ hp rfl rfl).1 rfl, rfl⟩

/-! ### The fresh reads (R108, R109) -/

section FreshRead

variable {pin : BitVec 4} {p : Pin} {b : Byte} {st : PortStatus} {s : State} (data : Byte → Byte)

theorem freshRead_of_success (h : portAnswer s = ⟨b, .success⟩) :
    freshRead data s = { takeAnswer s with
      cur := b
      obs := .response (issuer s) (successWord (data b)) :: .portRead Config.devAddr b .success :: s.obs } := by
  rcases freshRead_cases data s with ⟨-, e⟩ | ⟨hfail, -⟩
  · rw [e, portRead_of_answer h, h]
    rfl
  · simp [h] at hfail

theorem freshRead_of_failure (h : portAnswer s = ⟨b, st⟩) (hst : st ≠ .success) :
    freshRead data s = { takeAnswer s with
      obs := .response (issuer s) (failureWord st) :: .portRead Config.devAddr b st :: s.obs } := by
  rcases freshRead_cases data s with ⟨hsuccess, -⟩ | ⟨-, e⟩
  · simp [h, hst] at hsuccess
  · rw [e, portRead_of_answer h, h]
    rfl

theorem exec_dread (h : pin.toNat = p.val) :
    exec (.dread pin) s = .next (freshRead (fun b => zextBit (getBit b p)) s) :=
  congrArg Host.Outcome.next (withPin_eq h (fun p => freshRead fun b => zextBit (getBit b p)) s)

theorem exec_pread : exec .pread s = .next (freshRead (fun b => b) s) := rfl

end FreshRead

/-- Settles O29: DREAD's range check, and the two outcomes of the one read. -/
theorem freshReadsSetCurOnly : Obligations.FreshReadsSetCurOnly := by
  refine fun pin s => ⟨fun hpin => congrArg Host.Outcome.next (withPin_invalid hpin _ s), fun p b hp h => ?_,
    fun b h => ?_, fun i b st hi h hst => ?_⟩
  · rw [exec_dread hp, freshRead_of_success _ h]
    rfl
  · rw [exec_pread, freshRead_of_success _ h]
  · rcases hi with ⟨rfl, hpin⟩ | rfl
    · rw [exec_dread (p := ⟨_, hpin⟩) rfl, freshRead_of_failure _ h hst]
    · rw [exec_pread, freshRead_of_failure _ h hst]

end Sys2Proof.Machine

/-! ## Family 60_exceptions.md: the range check, failed transactions, precise errors, and no fault state -/

namespace Sys2Proof.Machine

/-! ### The range check of the per-pin commands (R112) -/

/-- A legal per-pin command is its range check, and nothing before it. -/
theorem exec_perPin {i : Instr} {pin : BitVec 4} (hwf : wellFormed i = true) (hi : perPinOperand i = some pin) :
    ∃ f, ∀ s, exec i s = .next (withPin pin f s) := by
  cases i with
  | setdir _ _ _ | setout _ _ | getin _ | attach _ _ _ | detach _ | toggle _ | dread _ =>
    cases hi
    exact ⟨_, fun _ => rfl⟩
  | pinmode _ pm =>
    cases hi
    have hpm : pm ≠ .reserved := of_decide_eq_true hwf
    exact ⟨_, exec_pinmode_eq_setdir hpm pin⟩
  | applyall _ | clearall | setall | poll | inten _ | ignore | pread => cases hi

/-- Settles O37: the range check refuses the pin. -/
theorem invalidPinFailsFast : Obligations.InvalidPinFailsFast := by
  intro i pin s hwf hi hpin
  obtain ⟨f, hf⟩ := exec_perPin hwf hi
  rw [hf, withPin_invalid hpin]

/-! ### What a command comes to: its transaction and its answer (R34, R73, R110, R113) -/

/-- Going from `s` to `u` makes one port transaction and nothing else. -/
def IsTransaction (s u : State) : Prop := (∃ x, u = portWrite x s) ∨ u = portRead s

section IsTransaction

variable {s u : State}

theorem arch_of_isTransaction (h : IsTransaction s u) : arch u = arch s := by
  rcases h with ⟨x, rfl⟩ | rfl
  · exact arch_portWrite s x
  · exact arch_portRead s

theorem portCount_of_isTransaction (h : IsTransaction s u) : portCount u = portCount s + 1 := by
  rcases h with ⟨x, rfl⟩ | rfl
  · exact portCount_portWrite s x
  · exact portCount_portRead s

theorem obs_of_isTransaction (h : IsTransaction s u) :
    ∃ e, ((∃ x, e = .portWrite Config.devAddr x (portAnswer s).status) ∨
      e = .portRead Config.devAddr (portAnswer s).byte (portAnswer s).status) ∧ u.obs = e :: s.obs := by
  rcases h with ⟨x, rfl⟩ | rfl
  · exact ⟨_, .inl ⟨x, rfl⟩, portWrite_obs s x⟩
  · exact ⟨_, .inr rfl, portRead_obs s⟩

end IsTransaction

/-- What a command that takes `s` to `t` comes to. -/
inductive CommandOutcome (s t : State) : Prop where
  /-- An answer without a transaction: a CODE other than 0 only if nothing changed. -/
  | atOnce (w : RespWord) (u : State) (answer : t = answered (issuer s) w u) (obs : u.obs = s.obs)
      (precise : respCode w = 0#3 ∨ arch u = arch s)
  /-- R71: the transaction succeeded and so did the command. -/
  | committed (success : (portAnswer s).status = .success) (w : RespWord) (u : State)
      (answer : t = answered (issuer s) w u) (code : respCode w = 0#3)
  /-- R73, R113: the transaction failed, and its status is the answer. -/
  | failed (failure : (portAnswer s).status ≠ .success) (u : State) (transaction : IsTransaction s u)
      (answer : t = answered (issuer s) (failureWord (portAnswer s).status) u)
  /-- R91: a poll of MAIN started, whose answer is owed. -/
  | started (success : (portAnswer s).status = .success) (obs : t.obs = (portRead s).obs)

theorem respCode_successWord (d : Byte) : respCode (successWord d) = 0#3 := respCode_respWord .success d

section Outcome

variable {s t : State}

theorem writeShadow_outcome (w d x : Byte) (s : State) : CommandOutcome s (writeShadow w d x s) := by
  rcases writeShadow_cases w d x s with ⟨hs, e⟩ | ⟨hf, e⟩
  · exact .committed hs _ _ e (respCode_successWord w)
  · exact .failed hf _ (.inl ⟨w, rfl⟩) e

theorem freshRead_outcome (data : Byte → Byte) (s : State) : CommandOutcome s (freshRead data s) := by
  rcases freshRead_cases data s with ⟨hs, e⟩ | ⟨hf, e⟩
  · exact .committed hs _ _ e (respCode_successWord _)
  · exact .failed hf _ (.inr rfl) e

theorem pollStart_outcome (hb : s.busy = false) : CommandOutcome s (pollStart .cmd s) := by
  have hmain : issuer s = .main := issuer_of_not_busy hb
  rcases pollStart_cases .cmd s with ⟨-, e⟩ | ⟨-, hs, e⟩ | ⟨-, hf, e⟩
  · rw [pollRespond_cmd, ← hmain] at e
    exact .atOnce _ _ e rfl (.inl (respCode_respWord .success pollIgnored))
  · exact .started hs (by rw [e])
  · rw [pollRespond_cmd, ← hmain, codeOfStatus_failure] at e
    exact .failed hf _ (.inr rfl) e

theorem exec_outcome {i : Instr} (h : exec i s = .next t) : CommandOutcome s t := by
  rcases exec_cases h with ⟨_, -, -, e⟩ | ⟨_, -, e⟩ | ⟨_, _, -, e⟩ | ⟨_, -, e⟩ | ⟨_, _, -, e⟩ | ⟨_, -, e⟩ | ⟨-, e⟩ |
    ⟨w, d, x, -, rfl⟩ | ⟨data, -, rfl⟩ | ⟨-, hb, rfl⟩ | ⟨-, -, e⟩
  -- INVALID_PIN and ILLEGAL.
  · exact .atOnce _ _ e rfl (.inr rfl)
  · exact .atOnce _ _ e rfl (.inr rfl)
  -- The successes without a transaction.
  · exact .atOnce _ _ e rfl (.inl (respCode_successWord _))
  · exact .atOnce _ _ e rfl (.inl rfl)
  · exact .atOnce _ _ e rfl (.inl rfl)
  · exact .atOnce _ _ e rfl (.inl rfl)
  · exact .atOnce _ _ e rfl (.inl rfl)
  · exact writeShadow_outcome w d x s
  · exact freshRead_outcome data s
  · exact pollStart_outcome hb
  · exact .atOnce _ _ e rfl (.inl rfl)

theorem runCommand_outcome {c : Command} (h : runCommand c s = .next t) : CommandOutcome s t := by
  rcases runCommand_cases h with ⟨i, -, hi⟩ | ⟨-, e⟩
  · exact exec_outcome hi
  · exact .atOnce _ _ e rfl (.inr rfl)

end Outcome

/-- Settles O38: of what a command can come to, only a failed transaction makes one and has a status other than success. -/
theorem failedTransactionCommitsNothing : Obligations.FailedTransactionCommitsNothing := by
  rintro i s t _ h hcount rfl hst
  cases exec_outcome h with
  | atOnce w u answer obs _ =>
    rw [answer, portCount_answered, portCount_of_obs obs] at hcount
    exact absurd rfl hcount
  | committed success => exact absurd success hst
  | failed _ u transaction answer =>
    obtain ⟨e, he, hobs⟩ := obs_of_isTransaction transaction
    subst answer
    refine ⟨?_, ?_, e, he, congrArg (List.cons _) hobs⟩
    · rw [arch_answered, arch_of_isTransaction transaction]
    · rw [portCount_answered, portCount_of_isTransaction transaction]
  | started success => exact absurd success hst

/-- An answer to the issuer is precise if its CODE is 0 or the twelve items are kept. -/
theorem precise_of_answered {s u : State} {w w' : RespWord} {dest : Issuer} {rest : List Obs}
    (hp : respCode w = 0#3 ∨ arch u = arch s) (hobs : (answered (issuer s) w u).obs = .response dest w' :: rest) :
    dest = issuer s ∧ (respCode w' ≠ 0#3 → arch (answered (issuer s) w u) = arch s) := by
  cases hobs
  exact ⟨rfl, hp.resolve_left⟩

/-- Settles O39: every answer a command gives is precise, and a poll that starts ends in a read, with no answer. -/
theorem everyErrorIsPrecise : Obligations.EveryErrorIsPrecise := by
  intro c s t dest w rest h hobs
  cases runCommand_outcome h with
  | atOnce _ _ answer _ precise =>
    subst answer
    exact precise_of_answered precise hobs
  | committed _ _ _ answer code =>
    subst answer
    exact precise_of_answered (.inl code) hobs
  | failed _ _ transaction answer =>
    subst answer
    exact precise_of_answered (.inr (arch_of_isTransaction transaction)) hobs
  | started _ obs => simp [obs] at hobs

/-! ### No fault state (R110) -/

/-- Settles O42: by the step of each agent. -/
theorem everyStepAnswersANextState : Obligations.EveryStepAnswersANextState := step_next

end Sys2Proof.Machine

/-! ## Family 70_reset_and_hazards.md: a fresh read between polls -/

namespace Sys2Proof.Machine

/-! ### Steady pins (R86, R88) -/

theorem edgeMatch_self {m : IntMode} {b : Bool} : edgeMatch m b b = true ↔ m = .low ∧ b = false := by
  by_cases hm : m = .low
  · simp [hm, edgeMatch_low]
  · simp [hm, edgeMatch_steady]

/-- R86: a pin with no edge between PREV and CUR is in the FireSet only by its LOW level. -/
theorem mem_fireSet_of_steady {s : State} {p : Pin} {k : Callback} (h : getBit s.prev p = getBit s.cur p) :
    (p, k) ∈ fireSet s ↔ binding s p = some ⟨.low, k⟩ ∧ getBit s.cur p = false := by
  simp only [mem_fireSet, h, edgeMatch_self]
  exact ⟨fun ⟨_, hb, hm, hlow⟩ => ⟨hm ▸ hb, hlow⟩, fun ⟨hb, hlow⟩ => ⟨.low, hb, rfl, hlow⟩⟩

/-! ### The next poll after a fresh read (R131) -/

section FreshReadThenPoll

variable {s : State} {b c : Byte}

/-- R108, R109: PREAD and a DREAD of pin 0..7 are fresh reads that differ only in the data they answer. -/
theorem exec_freshRead {i : Instr} (hi : i = .pread ∨ ∃ pin : BitVec 4, i = .dread pin ∧ pin.toNat < 8) :
    ∃ data, exec i s = .next (freshRead data s) := by
  rcases hi with rfl | ⟨pin, rfl, hpin⟩
  · exact ⟨_, exec_pread⟩
  · exact ⟨_, exec_dread (p := ⟨_, hpin⟩) rfl⟩

/-- R131: of what a poll reads, a fresh read that succeeds moves CUR and the port's answers only. -/
theorem freshRead_of_listed (data : Byte → Byte) {rest : List PortAnswer} (h : s.env.port = ⟨b, .success⟩ :: rest) :
    (freshRead data s).prev = s.prev ∧ (freshRead data s).cur = b ∧ (freshRead data s).bind = s.bind ∧
      (freshRead data s).busy = s.busy ∧ (freshRead data s).ign = s.ign ∧ (freshRead data s).env.port = rest := by
  rw [freshRead_of_success data (portAnswer_of_listed h), takeAnswer_of_listed h]
  exact ⟨rfl, rfl, rfl, rfl, rfl, rfl⟩

/-- R91: a POLL of MAIN that reads `c` shifts CUR into PREV. -/
theorem exec_poll_of_success (hb : s.busy = false) (hi : s.ign = false) (h : portAnswer s = ⟨c, .success⟩) :
    ∃ u, exec .poll s = .next u ∧ u.prev = s.cur ∧ u.cur = c ∧ u.bind = s.bind := by
  have ⟨_, _, hstarts, _⟩ := pollStartsOrDefersOrIgnores s
  exact ⟨_, hstarts c hb hi h, rfl, rfl, takeAnswer_bind s⟩

end FreshReadThenPoll

/-- Settles O49: the fresh read sets CUR to `b` alone, the POLL shifts it into PREV, and between equal levels only LOW matches. -/
theorem freshReadBecomesTheNextPrev : Obligations.FreshReadBecomesTheNextPrev := by
  intro i s b c rest hi hbusy hign hport
  obtain ⟨data, hread⟩ := exec_freshRead (s := s) hi
  obtain ⟨htprev, htcur, htbind, htbusy, htign, htport⟩ := freshRead_of_listed data hport
  obtain ⟨u, hpoll, hprev, hcur, hbind⟩ :=
    exec_poll_of_success (htbusy.trans hbusy) (htign.trans hign) (portAnswer_of_listed htport)
  rw [htcur] at hprev
  refine ⟨_, u, hread, htprev, hpoll, hprev, hcur, fun p k hagree => ?_⟩
  have hsteady : getBit u.prev p = getBit u.cur p := by rw [hprev, hcur, hagree]
  have hsame : binding u p = binding s p := by simp only [binding, hbind, htbind]
  rw [mem_fireSet_of_steady hsteady, hsame, hcur]

end Sys2Proof.Machine


/-! ## Family 95_test_vectors.md: the words of the vectors V2, V8, V10 and V11 -/

namespace Sys2Proof.Machine

/-- R65, R67: a word that stands for a command decodes to it, the converse of `encodeOfDecodeIsTheWord`. -/
theorem decode_of_standsFor {w : Word} {h : Callback} {i : Instr} (hi : StandsFor w h i) : decode w h = .ok i := by
  obtain ⟨hword, hwf, hhandle⟩ := hi
  have hround := decodeOfEncodeIsTheCommand i h hwf
  rwa [hword, hhandle] at hround

/-! ### Refused words (R63) -/

section Refused

variable (pin : BitVec 4) (d : Byte) (h : Callback)

/-- R63 clause 1: no other field makes a word of OP = 0x0 a command. -/
theorem decode_opcode_zero : decode (commandWord 0x0#4 pin d) h = .error .opcode := by
  simp [decode]

variable {pin d}

/-- R63 clause 2: SETOUT has one bit of DATA. -/
theorem decode_setout_of_reserved (hd : d.extractLsb' 1 7 ≠ 0#7) :
    decode (commandWord 0x2#4 pin d) h = .error .reservedBits := by
  simp [decode, ifReservedZero, hd]

/-- R63 clause 2: APPLYALL has no PIN. -/
theorem decode_applyall_of_reserved (hpin : pin ≠ 0#4) :
    decode (commandWord 0x4#4 pin d) h = .error .reservedBits := by
  simp [decode, ifReservedZero, hpin]

end Refused

/-- Settles O4: the eight legal words are what the encoder writes for their commands, and each of the other four meets a clause
of R63. -/
theorem sampleWordsDecode : Obligations.SampleWordsDecode := by
  refine ⟨decode_of_standsFor ⟨rfl, rfl, rfl⟩, decode_of_standsFor ⟨rfl, rfl, rfl⟩, decode_of_standsFor ⟨rfl, rfl, rfl⟩,
    decode_of_standsFor ⟨rfl, rfl, rfl⟩, decode_of_standsFor ⟨rfl, rfl, rfl⟩, decode_of_standsFor ⟨rfl, rfl, rfl⟩,
    decode_of_standsFor ⟨rfl, rfl, rfl⟩, decode_of_standsFor ⟨rfl, rfl, rfl⟩, ?_, ?_, ?_, ?_⟩
  · exact decode_setout_of_reserved (pin := 8) (d := 0x03) ⟨0⟩ (by decide)
  · exact decode_pinmode_three 0 ⟨0⟩
  · exact decode_opcode_zero 0xF 0xFF ⟨0⟩
  · exact decode_applyall_of_reserved (pin := 0xF) (d := 0xFF) ⟨0⟩ (by decide)

end Sys2Proof.Machine
